-- ==== Sys2Proof/Word.lean ====
section
/-! DEFINITION. The words of the part: their widths, as 0.8, 10.1 and R70 give them. -/
namespace Sys2Proof

/-- One byte of the SRAM. -/
abbrev Byte := BitVec 8

/-- A word of the frame: 32 bits, bit 31 the most significant (0.8). -/
abbrev Word := BitVec 32

/-- A line number; arithmetic on it is modulo 2^32 (0.8). -/
abbrev LineNo := BitVec 32

/-- A tick time, LN × 16 + k; arithmetic on it is modulo 2^36 (R70). -/
abbrev TickTime := BitVec 36

/-- A word address of the SRAM, 1,048,576 words (10.1). -/
abbrev WordAddr := BitVec 20

/-- A word offset from the base of the frame (0.5). -/
abbrev FrameOffset := BitVec 18

/-- The four byte enables of an access, bit n for byte n (0.8, 11.8). -/
abbrev Enables := BitVec 4

/-- One of the two lanes (0.9). -/
inductive LaneId where
  | lane0
  | lane1
deriving DecidableEq, Repr

end Sys2Proof
end

