-- ==== Sys2Proof/Syntax.lean ====
section
/-! DEFINITION. The commands of the part: one constructor for each row of spec/opcode_table.json, in the table's order.
The first operand `after` of every command is the number of reference clocks that have passed since the step before it
(log entry 1). The other operands are those the rules name (log entry 21). -/
namespace Sys2Proof

/-- A step of the part (95): an access at the U-port, an event on a pin, or one of the part's own events falling due. -/
inductive Instr where
  /-- POR: PORn is asserted (R196). -/
  | por (after : Nat)
  /-- POR_RELEASE: PORn is released with the FSEL strap at `fsel` (R181, R184). -/
  | porRelease (after : Nat) (fsel : BitVec 2)
  /-- CRSTN: CRSTn is asserted (R196). -/
  | crstn (after : Nat)
  /-- CRSTN_RELEASE: CRSTn is released (R182). -/
  | crstnRelease (after : Nat)
  /-- U_PORT_READ: the controller presents a read (R183). -/
  | uPortRead (after : Nat) (addr : WordAddr) (be : Enables)
  /-- U_PORT_WRITE: the controller presents a write that produces no copy (R183, R184). -/
  | uPortWrite (after : Nat) (addr : WordAddr) (data : Word) (be : Enables)
  /-- ARGUMENT_WORD_WRITE: a write to mailbox word 0..6 of the selected frame (R141). -/
  | argumentWordWrite (after : Nat) (n : Fin 7) (data : Word) (be : Enables)
  /-- CONSUMER_INDEX_WRITE: a full write to mailbox word 8 (R143). -/
  | consumerIndexWrite (after : Nat) (data : Word)
  /-- STAGING_WRITE: a write to a word of the staging area (R126). -/
  | stagingWrite (after : Nat) (offset : BitVec 10) (data : Word) (be : Enables)
  /-- SCAN_RING_WRITE: a write to a watched word of a scan-ring slot (R186). -/
  | scanRingWrite (after : Nat) (lane : LaneId) (slot : BitVec 4) (slotWord : BitVec 12) (data : Word) (be : Enables)
  /-- LANE_START: a go word with code H'01; `unread` is its bits 23..18 (R142, R148). -/
  | laneStart (after : Nat) (unread : BitVec 6) (laneField : BitVec 2) (seq : BitVec 16)
  /-- LANE_HOLD: a go word with code H'02 (R149). -/
  | laneHold (after : Nat) (unread : BitVec 6) (laneField : BitVec 2) (seq : BitVec 16)
  /-- LANE_RESUME: a go word with code H'03 (R150). -/
  | laneResume (after : Nat) (unread : BitVec 6) (laneField : BitVec 2) (seq : BitVec 16)
  /-- LANE_STOP: a go word with code H'04 (R151). -/
  | laneStop (after : Nat) (unread : BitVec 6) (laneField : BitVec 2) (seq : BitVec 16)
  /-- TABLE_COMMIT: a go word with code H'10 (R152). -/
  | tableCommit (after : Nat) (unread : BitVec 6) (laneField : BitVec 2) (seq : BitVec 16)
  /-- VALVE_TEST: a go word with code H'20 (R153, R102). -/
  | valveTest (after : Nat) (unread : BitVec 6) (laneField : BitVec 2) (seq : BitVec 16)
  /-- STATS_SNAPSHOT: a go word with code H'30 (R154). -/
  | statsSnapshot (after : Nat) (unread : BitVec 6) (laneField : BitVec 2) (seq : BitVec 16)
  /-- CAPTURE_STATE: a go word with code H'31 (R160). -/
  | captureState (after : Nat) (unread : BitVec 6) (laneField : BitVec 2) (seq : BitVec 16)
  /-- BAD_COMMAND: a go word with a code that is no command's (R146). -/
  | badCommand (after : Nat) (code : BitVec 8) (unread : BitVec 6) (laneField : BitVec 2) (seq : BitVec 16)
  /-- ENTRY_LEAVES_FIFO: the head of the observation FIFO is handed to its lane's intake (R187). -/
  | entryLeavesFifo (after : Nat)
  /-- STALL_LIMIT: the held write reaches the stall limit (R190). -/
  | stallLimit (after : Nat)
  /-- TRIGGER_EDGE: a rising edge on the lane's trigger input (R107). -/
  | triggerEdge (after : Nat) (lane : LaneId)
  /-- TICK: the lane's next tick falls due (R114). -/
  | tick (after : Nat) (lane : LaneId)
  /-- COAST_DEADLINE: the lane's coast deadline falls due (R116). -/
  | coastDeadline (after : Nat) (lane : LaneId)
  /-- SYNTHETIC_LINE_START: the lane's next synthetic time falls due (R117). -/
  | syntheticLineStart (after : Nat) (lane : LaneId)
  /-- BOOST_TIMER: the valve's boost timer reaches boost_us (R89). -/
  | boostTimer (after : Nat) (lane : LaneId) (valve : Fin 64)
  /-- CARRIER_PERIOD: the driven part or the period of the valve's carrier ends (R90). -/
  | carrierPeriod (after : Nat) (lane : LaneId) (valve : Fin 64)
  /-- MAX_ON_GUARD: the valve's guard reaches max_on_us (R92). -/
  | maxOnGuard (after : Nat) (lane : LaneId) (valve : Fin 64)
  /-- RECOVERY_END: the valve's recovery timer reaches recovery_us (R93). -/
  | recoveryEnd (after : Nat) (lane : LaneId) (valve : Fin 64)
  /-- TEST_DURATION_END: the valve's test opening reaches its duration (R103). -/
  | testDurationEnd (after : Nat) (lane : LaneId) (valve : Fin 64)
  /-- SUPPLY_DROP: the lane's supply-good input goes low (R95). -/
  | supplyDrop (after : Nat) (lane : LaneId)
  /-- SUPPLY_RETURN: the lane's supply-good input returns high (R97). -/
  | supplyReturn (after : Nat) (lane : LaneId)
  /-- SCAN_END: the commit scan has read its last word (R132). -/
  | scanEnd (after : Nat)
  /-- LANE_SWAP: a lane waiting in SWAPPING reaches its swap point (R134). -/
  | laneSwap (after : Nat) (lane : LaneId)
  /-- DRAIN_CONDITION: the drain condition was found to hold for the lane (R156). -/
  | drainCondition (after : Nat) (lane : LaneId)
  /-- CAPTURE_SNAPSHOT: the waiting capture reaches its line boundary (R160, R161). -/
  | captureSnapshot (after : Nat)
  /-- WRITER_UNIT_CHOICE: the idle writer chooses its next unit (R169). -/
  | writerUnitChoice (after : Nat)
  /-- WRITER_WORD_HANDED: the unit in progress hands its next word to the writer queue (R192). -/
  | writerWordHanded (after : Nat)
  /-- SPORT_ARBITRATION: the arbiter gives the free S-port to an access or to a word (R193). -/
  | sportArbitration (after : Nat)
  /-- CONTROLLER_ACCESS_DONE: the SRAM completes the controller access on the S-port (R183). -/
  | controllerAccessDone (after : Nat)
  /-- PART_WRITE_DONE: the SRAM completes the part write on the S-port (R192). -/
  | partWriteDone (after : Nat)
deriving DecidableEq, Repr

end Sys2Proof
end

