-- ==== Sys2Proof/Decode.lean ====
section
/-! DEFINITION. The commands that words spell. No row of spec/opcode_table.json gives bits ("fields" is empty and no row has
"fixed"), so no word spells a command. -/
namespace Sys2Proof

/-- The command a word spells by the table's bits: none for every word, since no row gives bits. -/
def decodeTableWord (_nbits _w : Nat) : Option Instr := none

end Sys2Proof
end

