-- ==== Sys2Proof/Config.lean ====
section
/-! DEFINITION. What one part and its board fix: the sizes and times the rules state, and the free values the rules leave open. -/
namespace Sys2Proof.Config

/-- Places of the observation FIFO (R186). -/
def fifoPlaces : Nat := 64
/-- Reference clocks after which a stalled write's observation is given up (R190). -/
def stallClocks : Nat := 200
/-- Words the writer queue holds (R192). -/
def writerQueuePlaces : Nat := 16
/-- Reference clocks after which the starvation guard puts a word first (R194). -/
def starvationClocks : Nat := 800
/-- Records the event queue holds (R164). -/
def eventQueuePlaces : Nat := 24
/-- Largest value of the drop count (R164). -/
def dropCountMax : Nat := 255
/-- Objects an open-object table holds (R40). -/
def objectPlaces : Nat := 48
/-- Entries a firing queue holds (R80). -/
def firingPlaces : Nat := 96
/-- Least distance of an accepted edge, in reference clocks (R109). -/
def glitchClocks : Nat := 2500
/-- Limits of Pq, in sixteenths of a reference clock (R113). -/
def pqMin : Nat := 40000
def pqMax : Nat := 800000
/-- Reference clocks of a commit scan: one word each (R131). -/
def scanClocks : Nat := 1024
/-- Largest drain count (R156). -/
def drainCountMax : Nat := 1023
/-- Largest JOINED count (5.1). -/
def joinedMax : Nat := 255
/-- Largest missed count of a supply episode (R96). -/
def episodeMissedMax : Nat := 65535
/-- Reference clocks of one microsecond (0.8, R71). -/
def clocksPerUs : Nat := 50
/-- Fewest ticks a window keeps (R72, R82, R84). -/
def leastWindow : Nat := 4
/-- Part identity and revision (R179, R181). -/
def partIdentity : BitVec 16 := 0x6412
def partRevision : BitVec 8 := 0x01
/-- Marker of a header and of an end word (R1). -/
def lineMarker : BitVec 16 := 0x4C4E
/-- Start value of the signature (R129). -/
def signatureSeed : Word := 0x5A5A5A5A

/-- The byte the SRAM holds at a byte address nothing has written since power-up: a free value.
The SRAM is not cleared by a reset (R197) and the spec gives it no content (log entry 6). -/
opaque sramContent : Nat → Byte

end Sys2Proof.Config
end

