-- ==== Sys2Proof/Machine/State.lean ====
section
/-! DEFINITION. The state of the part: every piece the spec gives its ten blocks, the pins, the SRAM behind the S-port, and
the queue of commands that wait. Plain data throughout. -/
namespace Sys2Proof.Machine

/-- Nothing stops the part: every step answers a next state. What goes wrong is reported in records, counts and modes. -/
inductive Fault where
deriving DecidableEq, Repr

/-- The reason a command has no next state. -/
inductive Refusal where
  /-- Raised by no command of this model: the dispatch would raise it for a row without a meaning. Safe. -/
  | notModelled (mnemonic : String)
deriving DecidableEq, Repr

/-- Lane mode (R155). -/
inductive LaneMode where
  | off | run | drain | hold | fault
deriving DecidableEq, Repr

/-- Class of a pixel, in severity order (section 2). -/
inductive PixelClass where
  | bg | sound | chalk | yellow | dark | foreign | stone
deriving DecidableEq, Repr

/-- State of a lane's clock (section 6.2). -/
inductive ClockState where
  | idle | waiting | locked | coasting | lost
deriving DecidableEq, Repr

/-- Reason of a LINE_FAULT record (R19). -/
inductive LineFaultReason where
  | ahead | stale | restart | incomplete | endMismatch | loss | lateEnd
deriving DecidableEq, Repr

/-- Reason of a rejected object (R62). -/
inductive RejectReason where
  | stone | foreign | long | dark | yellow | chalk
deriving DecidableEq, Repr

/-- Reason of a missed firing (R76, R105). -/
inductive MissReason where
  | noMiss | noValve | late | valveBusy | queueFull | supply | stopped | clockLost
deriving DecidableEq, Repr

/-- Cause of a mode change (R155). -/
inductive ModeCause where
  | start | hold | resume | stop | drained | clockLost
deriving DecidableEq, Repr

/-- Cause of a statistics snapshot (R174, R175). -/
inductive SnapshotCause where
  | interval | modeChange | command | reset
deriving DecidableEq, Repr

/-- Status of a command's answer (R147). -/
inductive CommandStatus where
  | ok | badCommand | badArgument | wrongMode | noTable | sigMismatch | stagingChanged | tableInvalid | valveBusy | noSupply
  | superseded
deriving DecidableEq, Repr

/-- Kind of a CLOCK_EVENT(LOCKED) (R122). -/
inductive LockKind where
  | first | newLine | reAnchor
deriving DecidableEq, Repr

/-- The line assembly while a line is open (section 1.2). A column's entry is `none` until it is seen. -/
structure Assembly where
  slot : BitVec 4
  header : BitVec 16
  line : LineNo
  rearMode : Bool
  front : Vector (Option PixelClass) 1024
  rear : Vector (Option PixelClass) 1024
  loss : Bool
  /-- A table swap came while the line was open: its classes are a mixture of two tables (R36). -/
  mixed : Bool := false
deriving DecidableEq, Repr

/-- Columns counted by class; BG is never counted (section 3.1). -/
structure ClassCounts where
  sound : Nat := 0
  chalk : Nat := 0
  yellow : Nat := 0
  dark : Nat := 0
  foreign : Nat := 0
  stone : Nat := 0
deriving DecidableEq, Repr

/-- An entry of the open-object table (section 3.1). -/
structure OpenObject where
  slotId : Nat
  firstLine : LineNo
  lastLine : LineNo
  spanStart : Nat
  spanEnd : Nat
  cmin : Nat
  cmax : Nat
  area : Nat
  counts : ClassCounts
  mixed : Bool := false
  merged : Bool := false
  long : Bool := false
  cluster : Bool := false
deriving DecidableEq, Repr

/-- A firing: what the GDU hands over (R74), and an entry of the firing queue or of a pending slot (section 5.1). -/
structure Firing where
  valve : Fin 64
  openTick : TickTime
  closeTick : TickTime
  tag : LineNo
  truncated : Bool := false
  clamped : Bool := false
  delayed : Bool := false
  joined : Nat := 0
deriving DecidableEq, Repr

/-- What an opening was started from (R103, R104). -/
inductive OpeningSource where
  | firing (entry : Firing)
  | test (durationUs : Nat)
deriving DecidableEq, Repr

/-- A current opening: its source, the moment BOOST began (the boost timer and the max-on guard count from it) and the
parameters latched then (R89). -/
structure Opening where
  source : OpeningSource
  began : Nat
  boostUs : Nat
  maxOnUs : Nat
  sustainDuty : Nat
  carrierUs : Nat
deriving DecidableEq, Repr

/-- Phase of a valve driver with what the driver holds in it (section 5.1, 5.3). -/
inductive ValvePhase where
  | closed
  | boost (o : Opening)
  /-- `periodStart` is the start of the current carrier period; `driven` says whether the output is driven (R90). -/
  | sustain (o : Opening) (periodStart : Nat) (driven : Bool)
  | recover (began : Nat) (recoveryUs : Nat) (endTick : Option TickTime)
deriving DecidableEq, Repr

/-- One valve driver. -/
structure Valve where
  phase : ValvePhase := .closed
  pending : Option Firing := none
deriving DecidableEq, Repr

/-- The LCU's state (section 6.1). -/
structure Clock where
  state : ClockState := .idle
  ln : LineNo := 0
  k : Nat := 0
  pq : Nat := 0
  lineStart : Nat := 0
  coastDeadline : Option Nat := none
  nextSynthetic : Option Nat := none
  episode : Nat := 0
deriving DecidableEq, Repr

/-- Grade block of a recipe, in the order of 7.2. -/
structure GradeBlock where
  stoneQLo : Nat := 0
  stoneQHi : Nat := 0
  stoneMin : Nat := 0
  foreignMin : Nat := 0
  darkMin : Nat := 0
  darkRatio : Nat := 0
  yellowMin : Nat := 0
  yellowRatio : Nat := 0
  chalkMin : Nat := 0
  chalkRatio : Nat := 0
  minArea : Nat := 0
  maxArea : Nat := 0
  maxLines : Nat := 0
  longPolicy : Nat := 0
  overflowPolicy : Nat := 0
deriving DecidableEq, Repr

/-- Parameter block of a lane, in the order of 7.2. -/
structure LaneBlock where
  rearEnable : Nat := 0
  rearOffset : Int := 0
  flightDelay : Nat := 0
  lead : Nat := 0
  lag : Nat := 0
  margin : Nat := 0
  boostUs : Nat := 0
  sustainDuty : Nat := 0
  carrierUs : Nat := 0
  recoveryUs : Nat := 0
  maxOnUs : Nat := 0
  dataWait : Nat := 0
  coastLimit : Nat := 0
  drainLines : Nat := 0
  statsIntervalCode : Nat := 0
deriving DecidableEq, Repr

/-- A lane's active table (R135): the colour map words, the grade block, the lane's boundaries and parameters. -/
structure ActiveTable where
  colourMap : Vector Word 256 := .replicate 256 0
  grade : GradeBlock := {}
  boundaries : Vector Nat 64 := .replicate 64 0
  block : LaneBlock := {}
deriving DecidableEq, Repr

/-- The 31 counters of a lane, in the order of R177. -/
structure Counters where
  linesProcessed : Word := 0
  linesVoid : Word := 0
  linesSkipped : Word := 0
  linesDamaged : Word := 0
  linesStale : Word := 0
  linesAhead : Word := 0
  strays : Word := 0
  lostWrites : Word := 0
  objectsClosed : Word := 0
  objectsAbandoned : Word := 0
  untrackedRuns : Word := 0
  accepted : Word := 0
  fragments : Word := 0
  rejectedStone : Word := 0
  rejectedForeign : Word := 0
  rejectedLong : Word := 0
  rejectedDark : Word := 0
  rejectedYellow : Word := 0
  rejectedChalk : Word := 0
  firingsOpened : Word := 0
  missedNoValve : Word := 0
  missedLate : Word := 0
  missedValveBusy : Word := 0
  missedQueueFull : Word := 0
  missedSupply : Word := 0
  missedStopped : Word := 0
  missedClockLost : Word := 0
  valveLimitTrips : Word := 0
  glitches : Word := 0
  jitter : Word := 0
  coastEpisodes : Word := 0
deriving DecidableEq, Repr

/-- Everything the part holds once per lane, its counters and its supply-good level among it. -/
structure Lane where
  mode : LaneMode := .off
  drainCount : Nat := 0
  /-- The last evaluation found the drain condition to hold, and the lane has not yet entered HOLD (log entry 8). -/
  drainDue : Bool := false
  /-- The line assembly; `none` is NO_LINE. -/
  assembly : Option Assembly := none
  /-- The expected line pointer E. -/
  expected : LineNo := 0
  /-- The open-object table, in table order. -/
  objects : List OpenObject := []
  /-- The firing queue, in queue order. -/
  firings : List Firing := []
  valves : Vector Valve 64 := .replicate 64 {}
  supplyGood : Bool := true
  episodeMissed : Nat := 0
  clock : Clock := {}
  /-- The active table; `none` is EMPTY. -/
  table : Option ActiveTable := none
  counters : Counters := {}
deriving DecidableEq, Repr

/-- An access accepted at the U-port (R183). -/
structure Access where
  addr : WordAddr
  write : Bool
  data : Word
  be : Enables
deriving DecidableEq, Repr

/-- An entry of the observation FIFO (R186); its lane is that of the ring its offset falls in. -/
structure FifoEntry where
  offset : FrameOffset
  data : Word
  be : Enables
deriving DecidableEq, Repr

/-- A scan-ring write held at the U-port, with the time it was held (R189). -/
structure Stall where
  entry : FifoEntry
  since : Nat
deriving DecidableEq, Repr

/-- A word of the writer queue, with the time it entered (R192). -/
structure QueuedWord where
  offset : FrameOffset
  data : Word
  entered : Nat
deriving DecidableEq, Repr

/-- What the S-port carries (R193). -/
inductive SPort where
  | free
  | controller
  | part (offset : FrameOffset) (data : Word)
deriving DecidableEq, Repr

/-- The Pass-Through Unit (section 10). `readData` is the word last returned to the controller. -/
structure Ptu where
  frameSelect : BitVec 2 := 0
  access : Option Access := none
  fifo : List FifoEntry := []
  stall : Option Stall := none
  writerQueue : List QueuedWord := []
  sport : SPort := .free
  /-- The starvation guard has placed a word before the access that waits, so the access goes next (log entry 31). -/
  guarded : Bool := false
  readData : Word := 0
deriving DecidableEq, Repr

/-- The commit machine (section 7.4). `started` is the time the scan began; the running signature, the word reached and
the lowest invalid offset follow from it (log entry 18). -/
inductive Commit where
  | idle
  | scanning (expected : Word) (mask : BitVec 2) (started : Nat)
  | swapping (mask : BitVec 2) (swapped : BitVec 2)
deriving DecidableEq, Repr

/-- The Recipe Table Unit less the active banks, which stand with their lanes. -/
structure Rtu where
  staged : Vector Word 1024 := .replicate 1024 0
  commit : Commit := .idle
deriving DecidableEq, Repr

/-- A command record (R142). -/
structure CommandRecord where
  code : BitVec 8
  laneField : BitVec 2
  seq : BitVec 16
  args : Vector Word 7
deriving DecidableEq, Repr

/-- The Command and Mode Unit less the lane modes and drain counts, which stand with their lanes. The command state is
EXECUTING when `executing` is present and READY otherwise. -/
structure Cmu where
  shadow : Vector Word 7 := .replicate 7 0
  consumerIndex : BitVec 9 := 0
  executing : Option CommandRecord := none
  slot : Option CommandRecord := none
  captureWait : Option LaneId := none
  /-- The waiting capture's lane stands at its line boundary (log entry 8). -/
  captureDue : Bool := false
deriving DecidableEq, Repr

/-- What an OBJECT_REJECTED record carries beside its lane (R76). -/
structure RejectReport where
  firstLine : LineNo
  lastLine : LineNo
  cmin : Nat
  cmax : Nat
  area : Nat
  reason : RejectReason
  mixed : Bool
  merged : Bool
  long : Bool
  cluster : Bool
  wide : Bool
  clamped : Bool
  truncated : Bool
  planned : Nat
  firstValve : Nat
  scheduled : Nat
  missed : Nat
  firstMiss : MissReason
  openTick : TickTime
deriving DecidableEq, Repr

/-- A record (R171), with the fields the rule that makes it names. -/
inductive Record where
  | resetDone (frameSelect : BitVec 2) (warm : Bool)
  | commandDone (code : BitVec 8) (laneField : BitVec 2) (seq : BitVec 16) (status : CommandStatus) (detail : Word)
  | modeChange (lane : LaneId) (before after : LaneMode) (cause : ModeCause) (seq : BitVec 16) (ln : LineNo)
  | clockEvent (lane : LaneId) (event : ClockState) (kind : Option LockKind) (episode : Nat) (ln : LineNo) (period : Nat)
  | supplyEvent (lane : LaneId) (restored : Bool) (count : Nat) (mode : LaneMode)
  | lineFault (lane : LaneId) (reason : LineFaultReason) (slot : BitVec 4) (header : BitVec 16) (line : LineNo) (seen : Nat)
  | objectRejected (lane : LaneId) (report : RejectReport)
  | overflowRun (lane : LaneId) (line : LineNo) (eject : Bool) (runs first last columns : Nat)
  | firingsCancelled (lane : LaneId) (reason : MissReason) (queued pending openings : Nat)
  | valveLimit (lane : LaneId) (valve : Fin 64) (test : Bool) (tag : LineNo) (openTick closeTick : TickTime) (maxOnUs : Nat)
deriving DecidableEq, Repr

/-- A record in the event queue with the drop count placed in its header (R165). -/
structure QueuedRecord where
  record : Record
  drops : Nat
deriving DecidableEq, Repr

/-- A lane snapshot with its age (R173). -/
structure Snapshot where
  counters : Counters
  mode : LaneMode
  clockState : ClockState
  period : Nat
  ln : LineNo
  cause : SnapshotCause
  age : Nat
deriving DecidableEq, Repr

/-- What the RWU holds once per lane: the snapshot buffer, the lane generation and the owed mark (09, R178). -/
structure LaneReport where
  snapshot : Option Snapshot := none
  generation : Word := 0
  owed : Bool := false
deriving DecidableEq, Repr

/-- The capture buffer: the lane state R161 names, with the capture's age as a waiting block unit (R180). -/
structure Capture where
  lane : LaneId
  seq : BitVec 16
  mode : LaneMode
  supplyGood : Bool
  clock : Clock
  expected : LineNo
  assembly : Option (LineNo × Nat)
  objects : List OpenObject
  firings : List Firing
  valves : Vector Valve 64
  age : Nat
deriving DecidableEq, Repr

/-- The kinds of writer unit (section 9.3). -/
inductive UnitKind where
  | ringRecord (slot : BitVec 9)
  /-- `answersOwed`: its snapshot was taken at or after the execution of the STATS_SNAPSHOT that waits (R178). -/
  | laneBlock (lane : LaneId) (answersOwed : Bool)
  | commonBlock
  | captureDump
deriving DecidableEq, Repr

/-- The unit in progress: the words not yet handed, in order, and how many of its words are not yet reported written. -/
structure WriterUnit where
  kind : UnitKind
  toHand : List (FrameOffset × Word)
  unreported : Nat
deriving DecidableEq, Repr

/-- The Result Writer Unit (section 9). -/
structure Rwu where
  queue : List QueuedRecord := []
  dropCount : Nat := 0
  droppedTotal : Word := 0
  producerIndex : BitVec 9 := 0
  report0 : LaneReport := {}
  report1 : LaneReport := {}
  /-- The age of the waiting common block, `none` when it does not wait. -/
  commonWaiting : Option Nat := none
  capture : Option Capture := none
  captureGeneration : Word := 0
  unit : Option WriterUnit := none
  /-- The cause of the last reset: `true` WARM, `false` COLD (R179). -/
  resetWarm : Bool := false
deriving DecidableEq, Repr

/-- The bytes of the SRAM written since power-up, as pairs of byte address and byte (log entry 6). Byte n of word w has
address 4 × w + n. -/
abbrev Memory := List Host.Cell

/-- The one form a memory has: addresses strictly rising, none beyond the SRAM's last byte. A byte that is not listed has
not been written, so no entry repeats what an unlisted address reads as. -/
abbrev Memory.wf (m : Memory) : Prop :=
  m.Pairwise (fun a b => a.1 < b.1) ∧ ∀ c ∈ m, c.1 < 4194304

/-- The whole machine. -/
structure State where
  /-- Reference clocks counted (log entry 1). -/
  now : Nat := 0
  /-- Steps taken; the age of a waiting block unit is the number of the step that requested it (log entry 17). -/
  events : Nat := 0
  porAsserted : Bool := false
  crstAsserted : Bool := false
  lane0 : Lane := {}
  lane1 : Lane := {}
  ptu : Ptu := {}
  rtu : Rtu := {}
  cmu : Cmu := {}
  rwu : Rwu := {}
  sram : Memory := []
  /-- The commands that wait, first in, first out. -/
  pending : List Instr := []
deriving DecidableEq, Repr

/-- The RESET snapshot of a lane that stands at its POR values (R175, R181). -/
def Snapshot.afterPor : Snapshot :=
  { counters := {}, mode := .off, clockState := .idle, period := 0, ln := 0, cause := .reset, age := 0 }

/-- The part before the release of PORn: every block holds its POR value (R21, R60, R106, R125, R139, R163, R181, R197)
and the reset input is still asserted. -/
def State.powerUp : State := { porAsserted := true }

/-- The machine right after reset: the release of POR has put RESET_DONE(COLD) into the event queue and has made the common
block and both lane blocks wait (R181). The strap level and the supply levels are DESIGN CHOICES (log entry 3). -/
def State.reset : State :=
  { rwu :=
      { queue := [⟨.resetDone 0 false, 0⟩]
        commonWaiting := some 0
        report0 := { snapshot := some Snapshot.afterPor }
        report1 := { snapshot := some Snapshot.afterPor } } }

end Sys2Proof.Machine
end

