-- ==== Sys2Proof/Machine/Flags.lean ====
section
/-! DEFINITION. The codes and flag bits of section 11.6 (R202), and the class codes of section 2. -/
namespace Sys2Proof.Machine

/-- Code of a class in the severity order (section 2). -/
def PixelClass.code : PixelClass → Nat
  | .bg => 0
  | .sound => 1
  | .chalk => 2
  | .yellow => 3
  | .dark => 4
  | .foreign => 5
  | .stone => 6

/-- The class of a code. A valid table holds no code above 6 (R128, R138), so the last case is never read from one
(log entry 25). -/
def PixelClass.ofCode : Nat → PixelClass
  | 0 => .bg
  | 1 => .sound
  | 2 => .chalk
  | 3 => .yellow
  | 4 => .dark
  | 5 => .foreign
  | _ => .stone

/-- The more severe of two classes (R34). -/
def PixelClass.moreSevere (a b : PixelClass) : PixelClass := if a.code < b.code then b else a

/-- Codes of the lane modes (R147, R202). -/
def LaneMode.code : LaneMode → Nat
  | .off => 0
  | .run => 1
  | .drain => 2
  | .hold => 3
  | .fault => 4

/-- Codes of the clock states (R202). -/
def ClockState.code : ClockState → Nat
  | .idle => 0
  | .waiting => 1
  | .locked => 2
  | .coasting => 3
  | .lost => 4

/-- Codes of the line fault reasons (R202). -/
def LineFaultReason.code : LineFaultReason → Nat
  | .ahead => 1
  | .stale => 2
  | .restart => 3
  | .incomplete => 4
  | .endMismatch => 5
  | .loss => 6
  | .lateEnd => 7

/-- Codes of the reject reasons (R202). -/
def RejectReason.code : RejectReason → Nat
  | .stone => 1
  | .foreign => 2
  | .long => 3
  | .dark => 4
  | .yellow => 5
  | .chalk => 6

/-- Codes of the miss reasons (R202). -/
def MissReason.code : MissReason → Nat
  | .noMiss => 0
  | .noValve => 1
  | .late => 2
  | .valveBusy => 3
  | .queueFull => 4
  | .supply => 5
  | .stopped => 6
  | .clockLost => 7

/-- Codes of the mode change causes (R202). -/
def ModeCause.code : ModeCause → Nat
  | .start => 1
  | .hold => 2
  | .resume => 3
  | .stop => 4
  | .drained => 5
  | .clockLost => 6

/-- Codes of the snapshot causes (R202). -/
def SnapshotCause.code : SnapshotCause → Nat
  | .interval => 0
  | .modeChange => 1
  | .command => 2
  | .reset => 3

/-- Codes of the statuses (R202). -/
def CommandStatus.code : CommandStatus → Nat
  | .ok => 0
  | .badCommand => 1
  | .badArgument => 2
  | .wrongMode => 3
  | .noTable => 4
  | .sigMismatch => 5
  | .stagingChanged => 6
  | .tableInvalid => 7
  | .valveBusy => 8
  | .noSupply => 9
  | .superseded => 10

/-- Kinds of a CLOCK_EVENT(LOCKED); 0 for COASTING and LOST (section 11.4). -/
def lockKindCode : Option LockKind → Nat
  | none => 0
  | some .first => 1
  | some .newLine => 2
  | some .reAnchor => 3

/-- Codes of the valve phases (R202). -/
def ValvePhase.code : ValvePhase → Nat
  | .closed => 0
  | .boost _ => 1
  | .sustain _ _ _ => 2
  | .recover _ _ _ => 3

/-- Number of a lane: 0 or 1 (0.8). -/
def laneNumber : LaneId → Nat
  | .lane0 => 0
  | .lane1 => 1

/-- A flag at a bit place. -/
def flagBit (b : Bool) (place : Nat) : Nat := if b then 2 ^ place else 0

/-- The object flags of OBJECT_REJECTED (R202, bits counted from bit 0 of the flags field). -/
def RejectReport.flags (r : RejectReport) : Nat :=
  flagBit r.mixed 0 + flagBit r.merged 1 + flagBit r.long 2 + flagBit r.cluster 3 + flagBit r.wide 4 + flagBit r.clamped 5
    + flagBit r.truncated 6

/-- The firing flags of a queue entry (R202). -/
def Firing.flags (f : Firing) : Nat := flagBit f.truncated 0 + flagBit f.clamped 1 + flagBit f.delayed 2

end Sys2Proof.Machine
end

