-- ==== Sys2Proof/WellFormed.lean ====
section
/-! DEFINITION. The checks on a command that its operand types leave open. A command that fails them is still run, by the
rules its bits fall under (log entry 21): these checks say which words belong to the row. -/
namespace Sys2Proof

/-- The eight command codes of R146. -/
def commandCodes : List (BitVec 8) := [0x01, 0x02, 0x03, 0x04, 0x10, 0x20, 0x30, 0x31]

/-- A slot word the part watches: header, pixel word or end word (section 1.1, R184). -/
def watchedSlotWord (w : BitVec 12) : Bool :=
  w.toNat == 0 || (1024 ≤ w.toNat && w.toNat ≤ 3071) || w.toNat == 4095

/-- Well-formed commands: a SCAN_RING_WRITE falls on a watched word, a BAD_COMMAND carries a code of no command.
Which U_PORT_WRITE is observed depends on the frame select (R184), which no command carries, so none is ill-formed. -/
def Instr.wellFormed : Instr → Bool
  | .scanRingWrite _ _ _ w _ _ => watchedSlotWord w
  | .badCommand _ code _ _ _ => !commandCodes.contains code
  | .uPortWrite _ _ _ _ => true
  | .por _ => true
  | .porRelease _ _ => true
  | .crstn _ => true
  | .crstnRelease _ => true
  | .uPortRead _ _ _ => true
  | .argumentWordWrite _ _ _ _ => true
  | .consumerIndexWrite _ _ => true
  | .stagingWrite _ _ _ _ => true
  | .laneStart _ _ _ _ => true
  | .laneHold _ _ _ _ => true
  | .laneResume _ _ _ _ => true
  | .laneStop _ _ _ _ => true
  | .tableCommit _ _ _ _ => true
  | .valveTest _ _ _ _ => true
  | .statsSnapshot _ _ _ _ => true
  | .captureState _ _ _ _ => true
  | .entryLeavesFifo _ => true
  | .stallLimit _ => true
  | .triggerEdge _ _ => true
  | .tick _ _ => true
  | .coastDeadline _ _ => true
  | .syntheticLineStart _ _ => true
  | .boostTimer _ _ _ => true
  | .carrierPeriod _ _ _ => true
  | .maxOnGuard _ _ _ => true
  | .recoveryEnd _ _ _ => true
  | .testDurationEnd _ _ _ => true
  | .supplyDrop _ _ => true
  | .supplyReturn _ _ => true
  | .scanEnd _ => true
  | .laneSwap _ _ => true
  | .drainCondition _ _ => true
  | .captureSnapshot _ => true
  | .writerUnitChoice _ => true
  | .writerWordHanded _ => true
  | .sportArbitration _ => true
  | .controllerAccessDone _ => true
  | .partWriteDone _ => true

end Sys2Proof
end

