-- ==== Sys2Proof/Machine/Operands.lean ====
section
/-! DEFINITION. How the part reads what it is given: addresses and frame offsets (R184), byte enables (0.8), go words (R142),
scan-ring words (section 1.1, 11.2), and the parameters of a recipe (section 7.2). Line numbers, tick times and real times
are compared and formed here too (R3, R70, 0.8). -/
namespace Sys2Proof.Machine

/-! ### Line numbers, tick times, real times -/

/-- The signed difference a − b of two line numbers (R3). -/
def lineDiff (a b : LineNo) : Int := (a - b).toInt

/-- "a < b" of two line numbers (R3). -/
def lineBefore (a b : LineNo) : Bool := decide (lineDiff a b < 0)

/-- The signed difference a − b of two tick times (R70). -/
def tickDiff (a b : TickTime) : Int := (a - b).toInt

/-- "a ≤ b" of two tick times (R70). -/
def tickLe (a b : TickTime) : Bool := decide (tickDiff a b ≤ 0)

/-- "a < b" of two tick times (R70). -/
def tickLt (a b : TickTime) : Bool := decide (tickDiff a b < 0)

/-- The later of two tick times. -/
def tickMax (a b : TickTime) : TickTime := if tickLe a b then b else a

/-- A tick time moved later by a number of ticks, modulo 2^36. -/
def tickAdd (a : TickTime) (n : Nat) : TickTime := a + BitVec.ofNat 36 n

/-- Tick time of tick k of a line: LN × 16 + k modulo 2^36 (0.8, R114). -/
def tickTime (ln : LineNo) (k : Nat) : TickTime := BitVec.ofNat 36 (ln.toNat * 16 + k)

/-- Reference clocks of a time in microseconds (0.8). -/
def usClocks (us : Nat) : Nat := us * Config.clocksPerUs

/-! ### Addresses and writes -/

/-- All four byte enables asserted (0.8). -/
def fullEnables : Enables := 0xF

/-- A full write (0.8). -/
def fullWrite (be : Enables) : Bool := be == fullEnables

/-- The bits of a word that the byte enables select. -/
def enableMask (be : Enables) : Word :=
  (if be[3] then 0xFF000000#32 else 0) ||| (if be[2] then 0x00FF0000#32 else 0) |||
    (if be[1] then 0x0000FF00#32 else 0) ||| (if be[0] then 0x000000FF#32 else 0)

/-- "Merged by byte enables": the enabled bytes of `data` replace those of `old` (0.8). -/
def mergeBytes (old data : Word) (be : Enables) : Word := (data &&& enableMask be) ||| (old &&& ~~~enableMask be)

/-- The frame an SRAM word address lies in: its upper two bits (10.1). -/
def frameOf (a : WordAddr) : BitVec 2 := a.extractLsb' 18 2

/-- The frame offset of an SRAM word address: its lower 18 bits (10.1). -/
def offsetOf (a : WordAddr) : FrameOffset := a.extractLsb' 0 18

/-- The SRAM word address of a frame offset (R184, R192). -/
def addressOf (frame : BitVec 2) (o : FrameOffset) : WordAddr := frame ++ o

/-- Where the copy of a write goes (R184). -/
inductive Destination where
  | nowhere
  | argument (n : Fin 7)
  | goWord
  | consumerIndex
  | staging (offset : BitVec 10)
  | scanRing
deriving DecidableEq, Repr

/-- Lane of a scan-ring offset: lane 0 below H'30000, lane 1 from it (R184). -/
def ringLane (o : FrameOffset) : LaneId := if o.toNat < 0x30000 then .lane0 else .lane1

/-- Slot of a scan-ring offset (section 1.1). -/
def slotOf (o : FrameOffset) : BitVec 4 := o.extractLsb' 12 4

/-- Slot word of a scan-ring offset (section 1.1). -/
def slotWordOf (o : FrameOffset) : BitVec 12 := o.extractLsb' 0 12

/-- The frame decoder's sorting of the offsets of the selected frame (R184). -/
def sortOffset (o : FrameOffset) : Destination :=
  if h : o.toNat < 7 then .argument ⟨o.toNat, h⟩
  else if o.toNat = 7 then .goWord
  else if o.toNat = 8 then .consumerIndex
  else if 0x400 ≤ o.toNat ∧ o.toNat < 0x800 then .staging (BitVec.ofNat 10 (o.toNat - 0x400))
  else if 0x20000 ≤ o.toNat ∧ watchedSlotWord (slotWordOf o) then .scanRing
  else .nowhere

/-- The offset of a word of a slot of a lane's scan ring (section 1.1 note 1). -/
def scanRingOffset (l : LaneId) (slot : BitVec 4) (word : BitVec 12) : FrameOffset :=
  (match l with | .lane0 => 2#2 | .lane1 => 3#2) ++ slot ++ word

/-- What a watched slot word is (section 1.1). -/
inductive SlotPlace where
  | header
  | front (column : Nat)
  | rear (column : Nat)
  | endWord
  | unwatched
deriving DecidableEq, Repr

def slotPlace (w : BitVec 12) : SlotPlace :=
  if w.toNat = 0 then .header
  else if w.toNat = 4095 then .endWord
  else if 1024 ≤ w.toNat ∧ w.toNat < 2048 then .front (w.toNat - 1024)
  else if 2048 ≤ w.toNat ∧ w.toNat < 3072 then .rear (w.toNat - 2048)
  else .unwatched

/-- The upper half of a header or end word: the marker (11.2). -/
def markerOf (w : Word) : BitVec 16 := w.extractLsb' 16 16

/-- The lower half of a header or end word: the 16-bit line number (11.2). -/
def numberOf (w : Word) : BitVec 16 := w.extractLsb' 0 16

/-! ### Pixel words (11.2): NIR, R, G, B from the top byte down -/

def pixelNir (w : Word) : Nat := (w.extractLsb' 24 8).toNat
def pixelRed (w : Word) : Nat := (w.extractLsb' 16 8).toNat
def pixelGreen (w : Word) : Nat := (w.extractLsb' 8 8).toNat
def pixelBlue (w : Word) : Nat := (w.extractLsb' 0 8).toNat

/-! ### Go words (R142) -/

/-- The go word of a code, the unread bits 23..18, a lane field and a sequence. -/
def goWord (code : BitVec 8) (unread : BitVec 6) (laneField : BitVec 2) (seq : BitVec 16) : Word :=
  code ++ unread ++ laneField ++ seq

def goCode (w : Word) : BitVec 8 := w.extractLsb' 24 8
def goLane (w : Word) : BitVec 2 := w.extractLsb' 16 2
def goSeq (w : Word) : BitVec 16 := w.extractLsb' 0 16

/-- The lane a lane field names; 2 and 3 name none (R146). -/
def laneOfField (f : BitVec 2) : Option LaneId :=
  if f = 0 then some .lane0 else if f = 1 then some .lane1 else none

/-- The bit of a lane in a lane mask or swapped mask (section 7.4 note 1). -/
def laneBit : LaneId → BitVec 2
  | .lane0 => 1
  | .lane1 => 2

/-- Whether a mask names a lane. -/
def maskHas (mask : BitVec 2) (l : LaneId) : Bool := (mask &&& laneBit l) != 0

/-! ### The recipe in the staged bank (section 7.2, 11.2) -/

/-- A word of the staged bank as an unsigned number (section 7.2). -/
def stagedNat (bank : Vector Word 1024) (i : Nat) : Nat := (bank[i]?.getD 0).toNat

/-- First word of a lane's boundaries. -/
def boundaryBase : LaneId → Nat
  | .lane0 => 0x200
  | .lane1 => 0x280

/-- First word of a lane's parameter block. -/
def blockBase : LaneId → Nat
  | .lane0 => 0x240
  | .lane1 => 0x2C0

/-- First word of the grade block. -/
def gradeBase : Nat := 0x100

def readGradeBlock (bank : Vector Word 1024) : GradeBlock :=
  let p := fun i => stagedNat bank (gradeBase + i)
  { stoneQLo := p 0, stoneQHi := p 1, stoneMin := p 2, foreignMin := p 3, darkMin := p 4, darkRatio := p 5, yellowMin := p 6
    yellowRatio := p 7, chalkMin := p 8, chalkRatio := p 9, minArea := p 10, maxArea := p 11, maxLines := p 12
    longPolicy := p 13, overflowPolicy := p 14 }

/-- A lane's parameter block; rear_offset alone is read as a signed number (section 7.2). -/
def readLaneBlock (bank : Vector Word 1024) (l : LaneId) : LaneBlock :=
  let p := fun i => stagedNat bank (blockBase l + i)
  { rearEnable := p 0, rearOffset := (bank[blockBase l + 1]?.getD 0).toInt, flightDelay := p 2, lead := p 3, lag := p 4
    margin := p 5, boostUs := p 6, sustainDuty := p 7, carrierUs := p 8, recoveryUs := p 9, maxOnUs := p 10, dataWait := p 11
    coastLimit := p 12, drainLines := p 13, statsIntervalCode := p 14 }

/-- The copy a swap makes for a lane: the common part and the lane's own part (R135). -/
def readTable (bank : Vector Word 1024) (l : LaneId) : ActiveTable :=
  { colourMap := Vector.ofFn fun i : Fin 256 => bank[i.val]
    grade := readGradeBlock bank
    boundaries := Vector.ofFn fun v : Fin 64 => stagedNat bank (boundaryBase l + v.val)
    block := readLaneBlock bank l }

/-- What a colour map word needs to be valid: each byte 0..6 (R128). -/
def colourWordValid (w : Word) : Bool :=
  (w.extractLsb' 0 8).toNat ≤ 6 && (w.extractLsb' 8 8).toNat ≤ 6 && (w.extractLsb' 16 8).toNat ≤ 6 &&
    (w.extractLsb' 24 8).toNat ≤ 6

/-- Range of a grade block word, with the relations judged at the word that carries them (R128). -/
def gradeWordValid (g : GradeBlock) : Nat → Bool
  | 0 => g.stoneQLo ≤ 255
  | 1 => g.stoneQHi ≤ 255 && g.stoneQLo ≤ g.stoneQHi
  | 2 => g.stoneMin ≤ 255
  | 3 => g.foreignMin ≤ 255
  | 4 => g.darkMin ≤ 255
  | 5 => g.darkRatio ≤ 1024
  | 6 => g.yellowMin ≤ 255
  | 7 => g.yellowRatio ≤ 1024
  | 8 => g.chalkMin ≤ 255
  | 9 => g.chalkRatio ≤ 1024
  | 10 => 1 ≤ g.minArea && g.minArea ≤ 4095
  | 11 => g.minArea ≤ g.maxArea && g.maxArea ≤ 65535
  | 12 => 8 ≤ g.maxLines && g.maxLines ≤ 255
  | 13 => g.longPolicy ≤ 2
  | 14 => g.overflowPolicy ≤ 1
  | _ => true

/-- Range of a lane block word (R128). -/
def blockWordValid (b : LaneBlock) : Nat → Bool
  | 0 => b.rearEnable ≤ 1
  | 1 => decide (-32 ≤ b.rearOffset) && decide (b.rearOffset ≤ 32)
  | 2 => 16 ≤ b.flightDelay && b.flightDelay ≤ 65535
  | 3 => b.lead ≤ 255
  | 4 => b.lag ≤ 255
  | 5 => b.margin ≤ 15
  | 6 => 100 ≤ b.boostUs && b.boostUs ≤ 2000 && b.boostUs ≤ b.maxOnUs
  | 7 => 1 ≤ b.sustainDuty && b.sustainDuty ≤ 16
  | 8 => 20 ≤ b.carrierUs && b.carrierUs ≤ 200
  | 9 => 200 ≤ b.recoveryUs && b.recoveryUs ≤ 5000
  | 10 => 500 ≤ b.maxOnUs && b.maxOnUs ≤ 20000
  | 11 => 1 ≤ b.dataWait && b.dataWait ≤ 32
  | 12 => 1 ≤ b.coastLimit && b.coastLimit ≤ 255
  | 13 => 1 ≤ b.drainLines && b.drainLines ≤ 1023
  | 14 => b.statsIntervalCode ≤ 3
  | _ => true

/-- A boundary word: 0..1,023 and, but for b0, greater than the boundary before it (R128). -/
def boundaryValid (bank : Vector Word 1024) (l : LaneId) (v : Nat) : Bool :=
  let b := stagedNat bank (boundaryBase l + v)
  b ≤ 1023 && (v == 0 || decide (stagedNat bank (boundaryBase l + (v - 1)) < b))

/-- Whether a staging word of a lane's part is valid; words of no lane part are (R128). -/
def laneWordValid (bank : Vector Word 1024) (l : LaneId) (i : Nat) : Bool :=
  if boundaryBase l ≤ i ∧ i < boundaryBase l + 64 then boundaryValid bank l (i - boundaryBase l)
  else if blockBase l ≤ i ∧ i < blockBase l + 15 then blockWordValid (readLaneBlock bank l) (i - blockBase l)
  else true

/-- Whether the staging word at an offset is valid for a commit of a lane mask; unused words and the part of a lane that is
not targeted are not judged (R128). -/
def stagedWordValid (bank : Vector Word 1024) (mask : BitVec 2) (i : Nat) : Bool :=
  if i < 256 then colourWordValid (bank[i]?.getD 0)
  else if gradeBase ≤ i ∧ i < gradeBase + 15 then gradeWordValid (readGradeBlock bank) (i - gradeBase)
  else (!maskHas mask .lane0 || laneWordValid bank .lane0 i) && (!maskHas mask .lane1 || laneWordValid bank .lane1 i)

/-- The lowest offset of an invalid word among the first `n` words (R128, R131). -/
def lowestInvalid (bank : Vector Word 1024) (mask : BitVec 2) (n : Nat) : Option Nat :=
  (List.range n).find? fun i => !stagedWordValid bank mask i

/-- One step of the signature: rotate left by 5, exclusive OR with the word, add its offset (R129). -/
def signatureStep (s : Word) (w : Word) (i : Nat) : Word := (s.rotateLeft 5 ^^^ w) + BitVec.ofNat 32 i

/-- The signature over a list of words that starts at an offset (R129). -/
def signatureFrom : Word → Nat → List Word → Word
  | s, _, [] => s
  | s, i, w :: ws => signatureFrom (signatureStep s w i) (i + 1) ws

/-- The signature of the staged bank (R129). -/
def signature (bank : Vector Word 1024) : Word := signatureFrom Config.signatureSeed 0 bank.toList

end Sys2Proof.Machine
end

