-- ==== Sys2Proof/Machine/Ops.lean ====
section
/-! DEFINITION. The named operations every block shares: reading and writing a lane, enqueuing a record, counting, reading and
writing the SRAM, the passing of time. -/
namespace Sys2Proof.Machine

/-! ### Lanes -/

/-- The state of a lane. -/
def State.lane (s : State) : LaneId → Lane
  | .lane0 => s.lane0
  | .lane1 => s.lane1

/-- Replaces the state of a lane. -/
def State.setLane (s : State) (l : LaneId) (x : Lane) : State :=
  match l with
  | .lane0 => { s with lane0 := x }
  | .lane1 => { s with lane1 := x }

/-- Changes the state of a lane. -/
def State.modLane (s : State) (l : LaneId) (f : Lane → Lane) : State := s.setLane l (f (s.lane l))

/-- The lane's active table. An EMPTY table reads as zeros; no lane block reads one (R138, log entry 16). -/
def Lane.activeTable (x : Lane) : ActiveTable := x.table.getD {}

/-- The lane's parameter block. -/
def Lane.block (x : Lane) : LaneBlock := x.activeTable.block

/-- The grade block of the lane's own copy. -/
def Lane.grade (x : Lane) : GradeBlock := x.activeTable.grade

/-- P = floor(Pq / 16), the line period in reference clocks (6.1 note 2). -/
def Clock.period (c : Clock) : Nat := c.pq / 16

/-- Tnow, the tick time of the last tick taken (6.1 note 1). -/
def Clock.tnow (c : Clock) : TickTime := tickTime c.ln c.k

/-- max_on_ticks for a period P (R71). -/
def Lane.maxOnTicks (x : Lane) : Nat := x.block.maxOnUs * 800 / x.clock.period

/-- rec_ticks for a period P (R81). -/
def Lane.recTicks (x : Lane) : Nat := x.block.recoveryUs * 800 / x.clock.period

/-- Whether lines are processed: RUN or DRAIN (R2, R42). -/
def LaneMode.sorting : LaneMode → Bool
  | .run => true
  | .drain => true
  | .off => false
  | .hold => false
  | .fault => false

/-- Changes a lane's counters. -/
def Lane.count (x : Lane) (f : Counters → Counters) : Lane := { x with counters := f x.counters }

/-! ### Records -/

/-- A record is made: it joins the event queue with the drop count in its header, or it is discarded (R164, R165). -/
def Rwu.enqueue (w : Rwu) (r : Record) : Rwu :=
  if w.queue.length < Config.eventQueuePlaces then
    { w with queue := w.queue ++ [⟨r, w.dropCount⟩], dropCount := 0 }
  else
    { w with dropCount := min (w.dropCount + 1) Config.dropCountMax, droppedTotal := w.droppedTotal + 1 }

/-- Makes a record. -/
def State.record (s : State) (r : Record) : State := { s with rwu := s.rwu.enqueue r }

/-- Makes records in the order given. -/
def State.records (s : State) (rs : List Record) : State := { s with rwu := rs.foldl Rwu.enqueue s.rwu }

/-- Applies a lane block's work: the lane it leaves and the records it made. -/
def State.apply (s : State) (l : LaneId) (w : Lane × List Record) : State := (s.setLane l w.1).records w.2

/-! ### Statistics snapshots -/

/-- What the RWU holds for a lane. -/
def Rwu.report (w : Rwu) : LaneId → LaneReport
  | .lane0 => w.report0
  | .lane1 => w.report1

def Rwu.setReport (w : Rwu) (l : LaneId) (r : LaneReport) : Rwu :=
  match l with
  | .lane0 => { w with report0 := r }
  | .lane1 => { w with report1 := r }

/-- A snapshot of a lane is taken into its buffer; one that replaces a waiting snapshot keeps the older age (R173). -/
def State.takeSnapshot (s : State) (l : LaneId) (cause : SnapshotCause) : State :=
  let x := s.lane l
  let r := s.rwu.report l
  let age := match r.snapshot with
    | some old => old.age
    | none => s.events
  let snap : Snapshot :=
    { counters := x.counters, mode := x.mode, clockState := x.clock.state, period := x.clock.period, ln := x.clock.ln
      cause := cause, age := age }
  { s with rwu := s.rwu.setReport l { r with snapshot := some snap } }

/-- The common block becomes waiting, unless it waits already (R178, R179). -/
def State.commonWaits (s : State) : State :=
  { s with rwu := { s.rwu with commonWaiting := some (s.rwu.commonWaiting.getD s.events) } }

/-! ### The SRAM behind the S-port -/

/-- The byte written last at an address, `none` where none has been written. -/
def Memory.readByte? : Memory → Nat → Option Byte
  | [], _ => none
  | c :: m, a => if c.1 = a then some c.2 else Memory.readByte? m a

/-- What a read of a byte returns: a byte nothing has written holds a free value (log entry 6). -/
def Memory.readByte (m : Memory) (a : Nat) : Byte := (Memory.readByte? m a).getD (Config.sramContent a)

/-- Writes one byte, at its place in rising order. -/
def Memory.writeByte : Memory → Nat → Byte → Memory
  | [], a, b => [(a, b)]
  | c :: m, a, b =>
    if a < c.1 then (a, b) :: c :: m
    else if a = c.1 then (a, b) :: m
    else c :: Memory.writeByte m a b

/-- Writes a byte if its enable is asserted. -/
def Memory.writeEnabled (m : Memory) (enabled : Bool) (a : Nat) (b : Byte) : Memory :=
  if enabled then Memory.writeByte m a b else m

/-- Writes the enabled bytes of a word (R183). -/
def Memory.writeWord (m : Memory) (addr : WordAddr) (data : Word) (be : Enables) : Memory :=
  let a := addr.toNat * 4
  let m := Memory.writeEnabled m be[0] a (data.extractLsb' 0 8)
  let m := Memory.writeEnabled m be[1] (a + 1) (data.extractLsb' 8 8)
  let m := Memory.writeEnabled m be[2] (a + 2) (data.extractLsb' 16 8)
  Memory.writeEnabled m be[3] (a + 3) (data.extractLsb' 24 8)

/-- The SRAM word at an address (R183). -/
def Memory.readWord (m : Memory) (addr : WordAddr) : Word :=
  let a := addr.toNat * 4
  Memory.readByte m (a + 3) ++ Memory.readByte m (a + 2) ++ Memory.readByte m (a + 1) ++ Memory.readByte m a

/-! ### Time -/

/-- Reference clocks pass and the step is numbered (log entries 1 and 17). -/
def State.pass (s : State) (after : Nat) : State := { s with now := s.now + after, events := s.events + 1 }

/-- Whether a reset input is asserted (R196). -/
def State.inReset (s : State) : Bool := s.porAsserted || s.crstAsserted

end Sys2Proof.Machine
end

