-- ==== Sys2Proof/Machine/Ejection.lean ====
section
/-! DEFINITION. The Ejection Unit: the firing queue, placement, due entries, valve phases, supply, cancellation and test
(section 5). Its operations act on one lane. -/
namespace Sys2Proof.Machine

/-! ### Valves -/

/-- A valve of a lane. -/
def Lane.valve (x : Lane) (v : Fin 64) : Valve := x.valves[v]

/-- Replaces a valve of a lane. -/
def Lane.setValve (x : Lane) (v : Fin 64) (y : Valve) : Lane := { x with valves := x.valves.set v y }

/-- Changes every valve of a lane. -/
def Lane.mapValves (x : Lane) (f : Valve → Valve) : Lane := { x with valves := Vector.ofFn fun v => f x.valves[v] }

/-- The current opening, in BOOST and SUSTAIN (5.3 note 1). -/
def Valve.opening (y : Valve) : Option Opening :=
  match y.phase with
  | .closed => none
  | .boost o => some o
  | .sustain o _ _ => some o
  | .recover _ _ _ => none

/-- The entry of the current opening, if it was started from a firing (R81). -/
def Valve.firingOpen (y : Valve) : Option Firing :=
  match y.opening with
  | some o =>
    match o.source with
    | .firing f => some f
    | .test _ => none
  | none => none

/-- Whether a VALVE_TEST opening is in progress (R103). -/
def Valve.testing (y : Valve) : Bool :=
  match y.opening with
  | some o =>
    match o.source with
    | .firing _ => false
    | .test _ => true
  | none => false

/-- Whether the valve output is driven: in BOOST, and in the driven part of SUSTAIN's carrier (R98). -/
def Valve.driven (y : Valve) : Bool :=
  match y.phase with
  | .closed => false
  | .boost _ => true
  | .sustain _ _ d => d
  | .recover _ _ _ => false

/-- Number of valves of a lane that have a property. -/
def Lane.countValves (x : Lane) (p : Valve → Bool) : Nat := x.valves.toList.countP p

/-- Enters BOOST: the parameters are latched from the lane's active table as it stands (R89). -/
def Lane.beginOpening (x : Lane) (now : Nat) (source : OpeningSource) : Opening :=
  { source := source, began := now, boostUs := x.block.boostUs, maxOnUs := x.block.maxOnUs, sustainDuty := x.block.sustainDuty
    carrierUs := x.block.carrierUs }

/-- Enters RECOVER: recovery_us is latched, the timer starts, the recovery end tick is set as the cause gives it (R91). The
pending slot stays as it is. -/
def Lane.toRecover (x : Lane) (now : Nat) (endTick : Option TickTime) (y : Valve) : Valve :=
  { y with phase := .recover now x.block.recoveryUs endTick }

/-- Recovery end tick of an opening that its close tick t ends (R91). -/
def Lane.endTickAtClose (x : Lane) (t : TickTime) : Option TickTime :=
  match x.mode with
  | .off => none
  | .fault => none
  | .run => some (tickAdd t x.recTicks)
  | .drain => some (tickAdd t x.recTicks)
  | .hold => some (tickAdd t x.recTicks)

/-- Recovery end tick of an opening that the guard, a supply drop or a test's end ends (R91). -/
def Lane.endTickNow (x : Lane) : Option TickTime :=
  match x.mode with
  | .off => none
  | .fault => none
  | .run => some (tickAdd x.clock.tnow (1 + x.recTicks))
  | .drain => some (tickAdd x.clock.tnow (1 + x.recTicks))
  | .hold => some (tickAdd x.clock.tnow (1 + x.recTicks))

/-- JOINED rises, saturating (5.1). -/
def Firing.join (f : Firing) : Firing := { f with joined := min (f.joined + 1) Config.joinedMax }

/-! ### The firing queue -/

/-- Queue order: open tick, then valve (R80). -/
def firingBefore (a b : Firing) : Bool :=
  tickLt a.openTick b.openTick || (a.openTick == b.openTick && decide (a.valve < b.valve))

/-- Puts an entry at its place in queue order (R80, R85). -/
def insertFiring (f : Firing) : List Firing → List Firing
  | [] => [f]
  | g :: gs => if firingBefore f g then f :: g :: gs else g :: insertFiring f gs

/-- The entries of a valve, in queue order. -/
def entriesOf (v : Fin 64) (q : List Firing) : List Firing := q.filter fun f => f.valve == v

/-- Replaces the last entry of a valve, in its place (R82). -/
def replaceLast (v : Fin 64) (f : Firing) : List Firing → List Firing
  | [] => []
  | g :: gs => if g.valve == v && !gs.any (fun h => h.valve == v) then f :: gs else g :: replaceLast v f gs

/-- Removes the last entry of a valve (R83). -/
def removeLast (v : Fin 64) : List Firing → List Firing
  | [] => []
  | g :: gs => if g.valve == v && !gs.any (fun h => h.valve == v) then gs else g :: removeLast v gs

/-! ### Placement -/

/-- The valve's latest window W (R81). -/
inductive LatestWindow where
  | queued (w : Firing)
  | pending (w : Firing)
  | current (w : Firing)
  | finished (endTick : Option TickTime)
  | absent
deriving DecidableEq, Repr

def Lane.latestWindow (x : Lane) (v : Fin 64) : LatestWindow :=
  match (entriesOf v x.firings).getLast? with
  | some w => .queued w
  | none =>
    match (x.valve v).pending with
    | some w => .pending w
    | none =>
      match (x.valve v).phase with
      | .closed => .absent
      | .boost o =>
        match o.source with
        | .firing w => .current w
        | .test _ => .absent
      | .sustain o _ _ =>
        match o.source with
        | .firing w => .current w
        | .test _ => .absent
      | .recover _ _ e => .finished e

/-- Answer to a placement (R81). -/
inductive PlaceAnswer where
  | scheduled
  | missed (reason : MissReason)
deriving DecidableEq, Repr

/-- A joined close: the later close, cut to `limit`, but not below W's own; with whether the cut shortened it (R82). -/
def joinedClose (wClose nClose limit : TickTime) : TickTime × Bool :=
  let raw := tickMax wClose nClose
  if tickLt limit raw then
    let cut := tickMax wClose limit
    (cut, cut != raw)
  else (raw, false)

/-- W as N joins it by R82, or `none` when the joined close leaves N less than four ticks. -/
def joinLater (maxOn : Nat) (w n : Firing) : Option Firing :=
  let c := joinedClose w.closeTick n.closeTick (tickAdd w.openTick maxOn)
  if tickLt c.1 (tickAdd n.openTick Config.leastWindow) then none
  else some { w.join with closeTick := c.1, clamped := w.clamped || c.2 }

/-- The earliest tick at which the valve may open under W (R83). -/
def Lane.openBound (x : Lane) (v : Fin 64) : TickTime :=
  let after := fun (f : Firing) => tickAdd f.closeTick (x.recTicks + 1)
  match (entriesOf v x.firings).dropLast.getLast? with
  | some f => after f
  | none =>
    match (x.valve v).pending with
    | some f => after f
    | none =>
      match (x.valve v).firingOpen with
      | some f => after f
      | none =>
        match (x.valve v).phase with
        | .recover _ _ (some e) => e
        | .recover _ _ none => tickAdd x.clock.tnow 1
        | .closed => tickAdd x.clock.tnow 1
        | .boost _ => tickAdd x.clock.tnow 1
        | .sustain _ _ _ => tickAdd x.clock.tnow 1

/-- W as N joins it by R83, or `none` when N lies wholly in the valve's rest before W. -/
def joinEarlier (maxOn : Nat) (bound : TickTime) (w n : Firing) : Option Firing :=
  if tickLt n.closeTick (tickAdd bound Config.leastWindow) then none
  else
    let opens := tickMax n.openTick bound
    let raw := tickMax w.closeTick n.closeTick
    let limit := tickAdd opens maxOn
    let cut := tickLt limit raw
    some { w.join with
      openTick := opens
      closeTick := if cut then limit else raw
      clamped := w.clamped || cut
      delayed := w.delayed || tickLt n.openTick bound }

/-- N becomes a new queue entry, or the queue is full (R85). -/
def Lane.addEntry (x : Lane) (n : Firing) : Lane × PlaceAnswer :=
  if x.firings.length < Config.firingPlaces then
    ({ x with firings := insertFiring { n with joined := 0 } x.firings }, .scheduled)
  else (x, .missed .queueFull)

/-- Places N against a window that is no queue entry's (R82 for a pending entry and for the current opening). -/
def Lane.placeAfter (x : Lane) (w n : Firing) (rejoin : Firing → Lane) : Lane × PlaceAnswer :=
  if tickLe n.openTick (tickAdd w.closeTick x.recTicks) then
    match joinLater x.maxOnTicks w n with
    | some w' => (rejoin w', .scheduled)
    | none => (x, .missed .valveBusy)
  else x.addEntry n

/-- Replaces the entry of the current opening (R82, R87). -/
def Valve.setFiring (y : Valve) (f : Firing) : Valve :=
  match y.phase with
  | .closed => y
  | .boost o => { y with phase := .boost { o with source := .firing f } }
  | .sustain o p d => { y with phase := .sustain { o with source := .firing f } p d }
  | .recover _ _ _ => y

/-- Places a firing against its valve's latest window (R81 to R85). The miss is not yet counted. -/
def Lane.placeFiring (x : Lane) (n : Firing) : Lane × PlaceAnswer :=
  let v := n.valve
  match x.latestWindow v with
  | .queued w =>
    if tickLt n.openTick w.openTick then
      match joinEarlier x.maxOnTicks (x.openBound v) w n with
      | some w' => ({ x with firings := insertFiring w' (removeLast v x.firings) }, .scheduled)
      | none => (x, .missed .valveBusy)
    else x.placeAfter w n fun w' => { x with firings := replaceLast v w' x.firings }
  | .pending w => x.placeAfter w n fun w' => x.setValve v { x.valve v with pending := some w' }
  | .current w => x.placeAfter w n fun w' => x.setValve v ((x.valve v).setFiring w')
  | .finished e =>
    match e with
    | some e =>
      if tickLt n.openTick e then
        if tickLt n.closeTick (tickAdd e Config.leastWindow) then (x, .missed .valveBusy)
        else x.addEntry { n with openTick := e, delayed := true }
      else x.addEntry n
    | none => x.addEntry n
  | .absent => x.addEntry n

/-- Counts misses of a reason that the EJU keeps (R105). -/
def Counters.missed (c : Counters) (r : MissReason) (n : Nat) : Counters :=
  let m := BitVec.ofNat 32 n
  match r with
  | .noMiss => c
  | .noValve => { c with missedNoValve := c.missedNoValve + m }
  | .late => { c with missedLate := c.missedLate + m }
  | .valveBusy => { c with missedValveBusy := c.missedValveBusy + m }
  | .queueFull => { c with missedQueueFull := c.missedQueueFull + m }
  | .supply => { c with missedSupply := c.missedSupply + m }
  | .stopped => { c with missedStopped := c.missedStopped + m }
  | .clockLost => { c with missedClockLost := c.missedClockLost + m }

/-- Counts misses of a reason in a lane. -/
def Lane.countMissed (x : Lane) (r : MissReason) (n : Nat) : Lane := { x with counters := x.counters.missed r n }

/-- Places a firing and counts a miss (R81, R105). -/
def Lane.place (x : Lane) (n : Firing) : Lane × PlaceAnswer :=
  match x.placeFiring n with
  | (y, .scheduled) => (y, .scheduled)
  | (y, .missed r) => (y.countMissed r 1, .missed r)

/-! ### Ticks -/

/-- An opening of a valve starts from an entry: BOOST, and firings opened rises; `rest` is what its pending slot then holds
(R87, R88). -/
def Lane.openEntry (x : Lane) (now : Nat) (v : Fin 64) (f : Firing) (rest : Option Firing) : Lane :=
  ({ x with counters := { x.counters with firingsOpened := x.counters.firingsOpened + 1 } } : Lane).setValve v
    { phase := .boost (x.beginOpening now (.firing f)), pending := rest }

/-- An entry that came due waits in the pending slot, or finds it occupied (R87). -/
def Lane.toPending (x : Lane) (f : Firing) : Lane :=
  match (x.valve f.valve).pending with
  | none => x.setValve f.valve { x.valve f.valve with pending := some f }
  | some _ => x.countMissed .valveBusy 1

/-- An entry joins the current opening at its due tick: the close is raised, never lowered (R87 note 2). DEDUCED: the opening's
JOINED count rises by one, whatever count the entry itself holds, and CLAMPED is set only where the cut shortens (log entry 15). -/
def joinAtDue (maxOn : Nat) (w f : Firing) : Firing :=
  let c := joinedClose w.closeTick f.closeTick (tickAdd w.openTick maxOn)
  { w.join with closeTick := c.1, clamped := w.clamped || c.2 }

/-- The episode's missed count rises, saturating (R96). -/
def Lane.episodeMiss (x : Lane) : Lane := { x with episodeMissed := min (x.episodeMissed + 1) Config.episodeMissedMax }

/-- An entry whose open tick is taken comes due (R87, R96). It has left the queue. -/
def Lane.entryDue (now : Nat) (x : Lane) (f : Firing) : Lane :=
  let y := x.valve f.valve
  if !x.supplyGood then (x.countMissed .supply 1).episodeMiss
  else
    match y.phase with
    | .closed => x.openEntry now f.valve f y.pending
    | .recover _ _ _ => x.toPending f
    | .boost o =>
      match o.source with
      | .firing w => x.setValve f.valve (y.setFiring (joinAtDue x.maxOnTicks w f))
      | .test _ => x.toPending f
    | .sustain o _ _ =>
      match o.source with
      | .firing w => x.setValve f.valve (y.setFiring (joinAtDue x.maxOnTicks w f))
      | .test _ => x.toPending f

/-- Whether the current opening's close tick is t (R86). -/
def Valve.closesAt (t : TickTime) (y : Valve) : Bool :=
  match y.firingOpen with
  | some f => f.closeTick == t
  | none => false

/-- Whether the pending entry's close tick is t (R86). -/
def Valve.pendingClosesAt (t : TickTime) (y : Valve) : Bool :=
  match y.pending with
  | some f => f.closeTick == t
  | none => false

/-- The EJU takes a tick of its lane with tick time t (R86): openings end (R91), pending entries are missed (R88), queue
entries come due (R87). -/
def Lane.ejectorTick (x : Lane) (now : Nat) (t : TickTime) : Lane :=
  let a := x.mapValves fun y => if y.closesAt t then x.toRecover now (x.endTickAtClose t) y else y
  let b := (a.mapValves fun y => if y.pendingClosesAt t then { y with pending := none } else y).countMissed .valveBusy
    (a.countValves (Valve.pendingClosesAt t))
  let due := b.firings.filter fun f => f.openTick == t
  due.foldl (Lane.entryDue now) { b with firings := b.firings.filter fun f => !(f.openTick == t) }

/-! ### Drain, supply, cancellation -/

/-- The lane is quiet: queue empty, every pending slot empty, no valve in BOOST or SUSTAIN (R101). -/
def Lane.quiet (x : Lane) : Bool :=
  x.firings.isEmpty && x.countValves (fun y => y.pending.isSome) == 0 && x.countValves (fun y => y.opening.isSome) == 0

/-- Ends an opening, if one is in progress, with a recovery end tick (R91). -/
def Lane.endOpening (x : Lane) (now : Nat) (endTick : Option TickTime) (y : Valve) : Valve :=
  if y.opening.isSome then x.toRecover now endTick y else y

/-- The supply drop (R95). -/
def Lane.dropSupply (x : Lane) (l : LaneId) (now : Nat) : Lane × List Record :=
  let openings := x.countValves fun y => y.opening.isSome
  let pendings := x.countValves fun y => y.pending.isSome
  let ended := x.mapValves fun y => { x.endOpening now x.endTickNow y with pending := none }
  ({ ended.countMissed .supply pendings with supplyGood := false, episodeMissed := pendings },
    [.supplyEvent l false openings x.mode])

/-- The supply return (R97). -/
def Lane.returnSupply (x : Lane) (l : LaneId) : Lane × List Record :=
  ({ x with supplyGood := true, episodeMissed := 0 }, [.supplyEvent l true x.episodeMissed x.mode])

/-- A valve already in RECOVER has its recovery end tick unset (R99, R106). -/
def Valve.unsetEndTick (y : Valve) : Valve :=
  match y.phase with
  | .closed => y
  | .boost _ => y
  | .sustain _ _ _ => y
  | .recover b r _ => { y with phase := .recover b r none }

/-- Ends an opening with its recovery end tick unset, unsets that of a recovery, empties the pending slot (R99, R106). -/
def Lane.cancelValve (x : Lane) (now : Nat) (y : Valve) : Valve :=
  { (x.endOpening now none y).unsetEndTick with pending := none }

/-- At stop or fault the EJU cancels its work as one event (R99). -/
def Lane.cancelFirings (x : Lane) (l : LaneId) (now : Nat) (reason : MissReason) : Lane × List Record :=
  let queued := x.firings.length
  let pendings := x.countValves fun y => y.pending.isSome
  let openings := x.countValves fun y => y.opening.isSome
  let cleared := ({ x.mapValves (x.cancelValve now) with firings := [] } : Lane).countMissed reason (queued + pendings)
  (cleared, if queued + pendings + openings = 0 then [] else [.firingsCancelled l reason queued pendings openings])

/-! ### Real-time events of one valve -/

/-- The boost timer reaches boost_us: SUSTAIN, whose carrier starts now (R89, R90). -/
def Lane.boostExpires (x : Lane) (now : Nat) (v : Fin 64) : Lane :=
  let y := x.valve v
  match y.phase with
  | .boost o => if o.began + usClocks o.boostUs ≤ now then x.setValve v { y with phase := .sustain o now true } else x
  | .closed => x
  | .sustain _ _ _ => x
  | .recover _ _ _ => x

/-- Reference clocks a carrier period drives the output (R90). -/
def Opening.drivenClocks (o : Opening) : Nat := o.carrierUs * 50 * o.sustainDuty / 16

/-- The driven part of the carrier period ends, or a new period begins (R90). With duty 16 the driven part is the whole
period and only the period's end is an event. -/
def Lane.carrierTurns (x : Lane) (now : Nat) (v : Fin 64) : Lane :=
  let y := x.valve v
  match y.phase with
  | .sustain o p d =>
    let periodEnd := p + usClocks o.carrierUs
    if periodEnd ≤ now then x.setValve v { y with phase := .sustain o periodEnd true }
    else if d && decide (p + o.drivenClocks ≤ now) then x.setValve v { y with phase := .sustain o p false }
    else x
  | .closed => x
  | .boost _ => x
  | .recover _ _ _ => x

/-- The VALVE_LIMIT record of an opening (R104). -/
def Opening.limitRecord (o : Opening) (l : LaneId) (v : Fin 64) : Record :=
  match o.source with
  | .firing f => .valveLimit l v false f.tag f.openTick f.closeTick o.maxOnUs
  | .test _ => .valveLimit l v true 0 0 0 o.maxOnUs

/-- The max-on guard reaches max_on_us and ends the opening (R92). -/
def Lane.guardTrips (x : Lane) (l : LaneId) (now : Nat) (v : Fin 64) : Lane × List Record :=
  match (x.valve v).opening with
  | some o =>
    if o.began + usClocks o.maxOnUs ≤ now then
      (({ x with counters := { x.counters with valveLimitTrips := x.counters.valveLimitTrips + 1 } } : Lane).setValve v
          (x.toRecover now x.endTickNow (x.valve v)),
        [o.limitRecord l v])
    else (x, [])
  | none => (x, [])

/-- The recovery timer reaches recovery_us: CLOSED, or BOOST with the pending entry (R93, R88). -/
def Lane.recoveryEnds (x : Lane) (now : Nat) (v : Fin 64) : Lane :=
  let y := x.valve v
  match y.phase with
  | .recover b r _ =>
    if b + usClocks r ≤ now then
      match y.pending with
      | some f => x.openEntry now v f none
      | none => x.setValve v { y with phase := .closed }
    else x
  | .closed => x
  | .boost _ => x
  | .sustain _ _ _ => x

/-- A test opening reaches its latched duration (R103). -/
def Lane.testEnds (x : Lane) (now : Nat) (v : Fin 64) : Lane :=
  let y := x.valve v
  match y.opening with
  | some o =>
    match o.source with
    | .test d => if o.began + usClocks d ≤ now then x.setValve v (x.toRecover now x.endTickNow y) else x
    | .firing _ => x
  | none => x

/-- The EJU's judgement of a VALVE_TEST (R102): the status, and for OK the latched duration. -/
def Lane.judgeTest (x : Lane) (v : Fin 64) (durationUs : Nat) : CommandStatus × Nat :=
  if x.mode ≠ .off ∧ x.mode ≠ .hold then (.wrongMode, x.mode.code)
  else
    match x.table with
    | none => (.noTable, 0)
    | some t =>
      if !x.supplyGood then (.noSupply, 0)
      else if (x.valve v).phase = .closed ∧ (x.valve v).pending = none then (.ok, min durationUs t.block.maxOnUs)
      else (.valveBusy, 0)

/-- An accepted test enters BOOST (R102, R89). -/
def Lane.startTest (x : Lane) (now : Nat) (v : Fin 64) (latchedUs : Nat) : Lane :=
  x.setValve v { phase := .boost (x.beginOpening now (.test latchedUs)), pending := none }

/-! ### Resets -/

/-- What CRSTn does to the EJU (R106): queue and pending slots emptied without record or count, openings ended, recoveries
kept with their end tick unset, the episode's count 0. -/
def Lane.warmResetEjector (x : Lane) (now : Nat) : Lane :=
  { x.mapValves (x.cancelValve now) with firings := [], episodeMissed := 0 }

end Sys2Proof.Machine
end

