-- ==== Sys2Proof/Machine/Tracking.lean ====
section
/-! DEFINITION. The Object Tracking Unit: runs, groups and the open-object table (section 3). What it hands to the GDU is
listed here; the hand-overs themselves are in Lines.lean. -/
namespace Sys2Proof.Machine

/-- Adds one column of a class (R41, R47); BG is never counted. -/
def ClassCounts.addColumn (n : ClassCounts) : PixelClass → ClassCounts
  | .bg => n
  | .sound => { n with sound := n.sound + 1 }
  | .chalk => { n with chalk := n.chalk + 1 }
  | .yellow => { n with yellow := n.yellow + 1 }
  | .dark => { n with dark := n.dark + 1 }
  | .foreign => { n with foreign := n.foreign + 1 }
  | .stone => { n with stone := n.stone + 1 }

/-- Sum of two counts, class by class (R46). -/
def ClassCounts.add (a b : ClassCounts) : ClassCounts :=
  { sound := a.sound + b.sound, chalk := a.chalk + b.chalk, yellow := a.yellow + b.yellow, dark := a.dark + b.dark
    foreign := a.foreign + b.foreign, stone := a.stone + b.stone }

/-- Sum of the six counts (R41). -/
def ClassCounts.total (n : ClassCounts) : Nat := n.sound + n.chalk + n.yellow + n.dark + n.foreign + n.stone

/-- A run of adjacent non-BG columns of one line (R43). -/
structure LineRun where
  first : Nat
  last : Nat
  counts : ClassCounts
deriving DecidableEq, Repr

/-- Number of columns of a run. -/
def LineRun.length (r : LineRun) : Nat := r.last - r.first + 1

/-- The runs of the columns from `c` on, left to right; `cur` is the run that ends in the column before `c`, if any (R43). -/
def runsFrom : Nat → Option LineRun → List PixelClass → List LineRun
  | _, none, [] => []
  | _, some r, [] => [r]
  | c, none, x :: xs =>
    if x = .bg then runsFrom (c + 1) none xs
    else runsFrom (c + 1) (some ⟨c, c, ClassCounts.addColumn {} x⟩) xs
  | c, some r, x :: xs =>
    if x = .bg then r :: runsFrom (c + 1) none xs
    else runsFrom (c + 1) (some { r with last := c, counts := r.counts.addColumn x }) xs

/-- The runs of a merged class line (R43). -/
def runsOf (line : List PixelClass) : List LineRun := runsFrom 0 none line

/-- A run touches an object when it shares a column with [span_start − 1, span_end + 1] (R44). -/
def touches (r : LineRun) (o : OpenObject) : Bool := decide (r.first ≤ o.spanEnd + 1) && decide (o.spanStart ≤ r.last + 1)

/-- A group of objects and runs (R44). -/
structure TouchGroup where
  objects : List OpenObject
  runs : List LineRun
deriving DecidableEq, Repr

/-- A run joins all groups that hold an object it touches, or forms a group of its own: runs do not touch runs (R44). -/
def addRun (gs : List TouchGroup) (r : LineRun) : List TouchGroup :=
  let hit := gs.filter fun g => g.objects.any (touches r)
  let rest := gs.filter fun g => !g.objects.any (touches r)
  ⟨hit.flatMap TouchGroup.objects, hit.flatMap TouchGroup.runs ++ [r]⟩ :: rest

/-- The groups of a line: the transitive closure of touching (R44). -/
def touchGroups (objects : List OpenObject) (runs : List LineRun) : List TouchGroup :=
  runs.foldl addRun (objects.map fun o => ⟨[o], []⟩)

/-- Puts an object at its place in table order, by span_start (R40). -/
def insertObject (o : OpenObject) : List OpenObject → List OpenObject
  | [] => [o]
  | p :: ps => if o.spanStart < p.spanStart then o :: p :: ps else p :: insertObject o ps

/-- Objects in table order. -/
def sortObjects (os : List OpenObject) : List OpenObject := os.foldr insertObject []

/-- The leftmost of two objects (R46). -/
def leftmost (a b : OpenObject) : OpenObject := if b.spanStart < a.spanStart then b else a

/-- Merges another object of its group into one (R46). The slot id and the span are those of the leftmost. -/
def mergeObjects (a b : OpenObject) : OpenObject :=
  { leftmost a b with
    firstLine := if lineBefore b.firstLine a.firstLine then b.firstLine else a.firstLine
    cmin := min a.cmin b.cmin
    cmax := max a.cmax b.cmax
    area := a.area + b.area
    counts := a.counts.add b.counts
    mixed := a.mixed || b.mixed
    merged := true }

/-- Extends an object by the runs of its group (R47). -/
def extendObject (line : LineNo) (runs : List LineRun) (o : OpenObject) : OpenObject :=
  match runs with
  | [] => o
  | r :: rs =>
    let first := rs.foldl (fun m q => min m q.first) r.first
    let last := rs.foldl (fun m q => max m q.last) r.last
    { o with
      area := runs.foldl (fun n q => n + q.length) o.area
      counts := runs.foldl (fun n q => n.add q.counts) o.counts
      spanStart := first
      spanEnd := last
      cmin := min o.cmin first
      cmax := max o.cmax last
      lastLine := line }

/-- What becomes of a group that holds an object and a run: its objects merged, then extended (R46, R47). -/
def groupObject (line : LineNo) (g : TouchGroup) : Option OpenObject :=
  match g.objects, g.runs with
  | o :: os, _ :: _ => some (extendObject line g.runs (os.foldl mergeObjects o))
  | _, _ => none

/-- The lowest-numbered free place (R48). -/
def freePlace (objects : List OpenObject) : Option Nat :=
  (List.range Config.objectPlaces).find? fun i => !objects.any fun o => o.slotId == i

/-- A run becomes a new object in a place, its four flags clear (R48, R55). -/
def newObject (line : LineNo) (place : Nat) (r : LineRun) : OpenObject :=
  { slotId := place, firstLine := line, lastLine := line, spanStart := r.first, spanEnd := r.last, cmin := r.first, cmax := r.last
    area := r.length, counts := r.counts }

/-- Offers places to runs left to right; the runs that find the table full are untracked (R48, R49). -/
def placeRuns (line : LineNo) : List OpenObject → List LineRun → List OpenObject × List LineRun
  | objects, [] => (objects, [])
  | objects, r :: rs =>
    match freePlace objects with
    | some i => placeRuns line (insertObject (newObject line i r) objects) rs
    | none => (objects, r :: rs)

/-- Sets CLUSTER at a closure if the area exceeds max_area (R45, R52, R54). -/
def closeObject (maxArea : Nat) (o : OpenObject) : OpenObject := { o with cluster := decide (maxArea < o.area) }

/-- Length of an object in lines (R52). -/
def OpenObject.lines (o : OpenObject) : Nat := (o.lastLine - o.firstLine + 1).toNat

/-- What one data line does to the table: the table it leaves, and what it hands to the GDU in the order of R53. -/
structure LineResult where
  table : List OpenObject
  closed : List OpenObject
  untracked : List LineRun
  forced : List OpenObject
deriving DecidableEq, Repr

/-- The OTU's processing of a data line (R43 to R52). -/
def trackLine (g : GradeBlock) (line : LineNo) (classes : List PixelClass) (objects : List OpenObject) : LineResult :=
  let runs := runsOf classes
  let closed := objects.filter fun o => !runs.any fun r => touches r o
  let groups := touchGroups objects runs
  let kept := sortObjects (groups.filterMap (groupObject line))
  let fresh := runs.filter fun r => !objects.any fun o => touches r o
  let placed := placeRuns line kept fresh
  let isLong := fun (o : OpenObject) => decide (g.maxLines ≤ o.lines)
  { table := placed.1.filter fun o => !isLong o
    closed := closed.map (closeObject g.maxArea)
    untracked := placed.2
    forced := (placed.1.filter isLong).map fun o => closeObject g.maxArea { o with long := true } }

/-- The tracker marks MIXED the objects that a line open across a swap has formed (R36): those the line leaves in the table and
those it force-closes. DEDUCED: an object starts with MIXED clear by R48 and R55, and this mark follows it (log entry 35). -/
def LineResult.markFormed (mixed : Bool) (r : LineResult) : LineResult :=
  let mark := fun (o : OpenObject) => { o with mixed := o.mixed || mixed }
  { r with table := r.table.map mark, forced := r.forced.map mark }

/-- At a swap every open object is marked MIXED (R55). -/
def Lane.markMixed (x : Lane) : Lane := { x with objects := x.objects.map fun o => { o with mixed := true } }

/-- Every object is abandoned and counted (R57). -/
def Lane.abandonObjects (x : Lane) : Lane :=
  { x with
    objects := []
    counters := { x.counters with objectsAbandoned := x.counters.objectsAbandoned + BitVec.ofNat 32 x.objects.length } }

end Sys2Proof.Machine
end

