-- ==== Sys2Proof/Machine/Grading.lean ====
section
/-! DEFINITION. The Grading Unit: decision, valve span, window, lateness and the reject record (section 4). Its operations
act on one lane and give the records they make. -/
namespace Sys2Proof.Machine

/-- A decision (R62). -/
inductive Decision where
  | accept
  | fragment
  | reject (reason : RejectReason)
deriving DecidableEq, Repr

/-- The ratio test of checks 5 to 7 (R63). -/
def ratioTest (minimum ratio count area : Nat) : Bool :=
  minimum != 0 && decide (minimum ≤ count) && decide (ratio * area ≤ 1024 * count)

/-- Checks 4 to 8 (R62). -/
def decideByCounts (g : GradeBlock) (o : OpenObject) : Decision :=
  if o.area < g.minArea then .fragment
  else if ratioTest g.darkMin g.darkRatio o.counts.dark o.area then .reject .dark
  else if ratioTest g.yellowMin g.yellowRatio o.counts.yellow o.area then .reject .yellow
  else if ratioTest g.chalkMin g.chalkRatio o.counts.chalk o.area then .reject .chalk
  else .accept

/-- The GDU's decision: the checks in order (R62, R64). -/
def decideObject (g : GradeBlock) (o : OpenObject) : Decision :=
  if g.stoneMin ≠ 0 ∧ g.stoneMin ≤ o.counts.stone then .reject .stone
  else if g.foreignMin ≠ 0 ∧ g.foreignMin ≤ o.counts.foreign then .reject .foreign
  else if o.long ∧ g.longPolicy = 0 then .accept
  else if o.long ∧ g.longPolicy = 1 then .reject .long
  else decideByCounts g o

/-- Raises the count of a decision (R66). -/
def Counters.decision (c : Counters) : Decision → Counters
  | .accept => { c with accepted := c.accepted + 1 }
  | .fragment => { c with fragments := c.fragments + 1 }
  | .reject .stone => { c with rejectedStone := c.rejectedStone + 1 }
  | .reject .foreign => { c with rejectedForeign := c.rejectedForeign + 1 }
  | .reject .long => { c with rejectedLong := c.rejectedLong + 1 }
  | .reject .dark => { c with rejectedDark := c.rejectedDark + 1 }
  | .reject .yellow => { c with rejectedYellow := c.rejectedYellow + 1 }
  | .reject .chalk => { c with rejectedChalk := c.rejectedChalk + 1 }

/-- The valve that covers a column: the largest v whose boundary is not above the column (R67). -/
def valveOfColumn (b : Vector Nat 64) (column : Nat) : Nat :=
  (List.range 64).foldl (fun best v => if b[v]?.getD 0 ≤ column then v else best) 0

/-- The chosen valves of a span: the first and how many (R68, R69); `none` is NO_VALVE. The flag is WIDE. -/
structure ValveSpan where
  first : Nat
  planned : Nat
  wide : Bool
deriving DecidableEq, Repr

def valveSpan (t : ActiveTable) (cmin cmax : Nat) : Option ValveSpan :=
  let b0 := t.boundaries[0]
  let hi := min (cmax + t.block.margin) 1023
  if hi < b0 then none
  else
    let lo := max (cmin - t.block.margin) b0
    let vlo := valveOfColumn t.boundaries lo
    let vhi := valveOfColumn t.boundaries hi
    let n := vhi - vlo + 1
    if n ≤ 4 then some ⟨vlo, n, false⟩ else some ⟨vlo + (n - 4) / 2, 4, true⟩

/-- A window after R70 and R71. -/
structure Window where
  opens : TickTime
  closes : TickTime
  clamped : Bool
deriving DecidableEq, Repr

/-- The window of a reject, clamped to max_on_ticks (R70, R71). -/
def Lane.window (x : Lane) (firstLine lastLine : LineNo) : Window :=
  let opens := tickTime firstLine 0 + BitVec.ofNat 36 x.block.flightDelay - BitVec.ofNat 36 x.block.lead
  let closes := tickTime lastLine 16 + BitVec.ofNat 36 (x.block.flightDelay + x.block.lag)
  if tickDiff closes opens > (x.maxOnTicks : Int) then ⟨opens, tickAdd opens x.maxOnTicks, true⟩ else ⟨opens, closes, false⟩

/-- Outcome of the lateness test (R72). -/
inductive Lateness where
  | stands
  | truncated
  | late
deriving DecidableEq, Repr

def lateness (tnow : TickTime) (w : Window) : Lateness :=
  if tickLt tnow w.opens then .stands
  else if (Config.leastWindow : Int) ≤ tickDiff w.closes (tnow + 1) then .truncated
  else .late

/-- What became of the firings of one reject (R74). -/
structure FiringTally where
  scheduled : Nat := 0
  missed : Nat := 0
  firstMiss : MissReason := .noMiss
deriving DecidableEq, Repr

/-- Hands one firing to the EJU and keeps its answer; the first miss is that of the lowest-numbered valve (R74). -/
def handFiring (n : Firing) (a : Lane × FiringTally) (v : Nat) : Lane × FiringTally :=
  match a.1.place { n with valve := Fin.ofNat 64 v } with
  | (y, .scheduled) => (y, { a.2 with scheduled := a.2.scheduled + 1 })
  | (y, .missed r) =>
    (y, { a.2 with missed := a.2.missed + 1, firstMiss := if a.2.firstMiss = .noMiss then r else a.2.firstMiss })

/-- Hands the firings of a span in ascending valve order (R74). -/
def Lane.handFirings (x : Lane) (s : ValveSpan) (n : Firing) : Lane × FiringTally :=
  ((List.range s.planned).map (s.first + ·)).foldl (handFiring n) (x, {})

/-- What the GDU found for one reject: span, window, and what became of its firings. -/
structure RejectOutcome where
  planned : Nat
  firstValve : Nat
  wide : Bool
  window : Window
  truncated : Bool
  tally : FiringTally
deriving DecidableEq, Repr

/-- Span, window, lateness and hand-over of the firings of a reject or an overflow reject (R68 to R75). The misses NO_VALVE
and LATE are counted here (R77). -/
def Lane.ejectSpan (x : Lane) (cmin cmax : Nat) (firstLine lastLine : LineNo) : Lane × RejectOutcome :=
  let w := x.window firstLine lastLine
  match valveSpan x.activeTable cmin cmax with
  | none => (x.countMissed .noValve 1, ⟨0, 0, false, w, false, ⟨0, 0, .noValve⟩⟩)
  | some s =>
    let n : Firing := { valve := 0, openTick := w.opens, closeTick := w.closes, tag := firstLine, clamped := w.clamped }
    match lateness x.clock.tnow w with
    | .late => (x.countMissed .late s.planned, ⟨s.planned, s.first, s.wide, w, false, ⟨0, s.planned, .late⟩⟩)
    | .stands =>
      let h := x.handFirings s n
      (h.1, ⟨s.planned, s.first, s.wide, w, false, h.2⟩)
    | .truncated =>
      let o := x.clock.tnow + 1
      let h := x.handFirings s { n with openTick := o, truncated := true }
      (h.1, ⟨s.planned, s.first, s.wide, { w with opens := o }, true, h.2⟩)

/-- The OBJECT_REJECTED record of an object (R76). -/
def rejectReport (o : OpenObject) (reason : RejectReason) (r : RejectOutcome) : RejectReport :=
  { firstLine := o.firstLine, lastLine := o.lastLine, cmin := o.cmin, cmax := o.cmax, area := o.area, reason := reason
    mixed := o.mixed, merged := o.merged, long := o.long, cluster := o.cluster, wide := r.wide, clamped := r.window.clamped
    truncated := r.truncated, planned := r.planned, firstValve := r.firstValve, scheduled := r.tally.scheduled
    missed := r.tally.missed, firstMiss := r.tally.firstMiss, openTick := r.window.opens }

/-- The GDU takes a closed object: the OTU has counted it closed, the decision is made and counted, a reject's firings are
handed and its record is made (R61 to R66, R76). -/
def Lane.gradeObject (x : Lane) (l : LaneId) (o : OpenObject) : Lane × List Record :=
  let d := decideObject x.grade o
  let counted := x.count fun c => ({ c with objectsClosed := c.objectsClosed + 1 } : Counters).decision d
  match d with
  | .accept => (counted, [])
  | .fragment => (counted, [])
  | .reject reason =>
    let r := counted.ejectSpan o.cmin o.cmax o.firstLine o.lastLine
    (r.1, [.objectRejected l (rejectReport o reason r.2)])

/-- The GDU takes an untracked run as an overflow reject: no decision count and no record (R75). -/
def Lane.gradeOverflow (x : Lane) (line : LineNo) (r : LineRun) : Lane := (x.ejectSpan r.first r.last line line).1

end Sys2Proof.Machine
end

