-- ==== Sys2Proof/Machine/Pixel.lean ====
section
/-! DEFINITION. The Pixel Classification Unit: features, class and view merge (section 2). -/
namespace Sys2Proof.Machine

/-- Brightness L (R24). -/
def brightness (r g b : Nat) : Nat := (r + 2 * g + b + 2) / 4

/-- Yellowness Yd, saturated to −128..+127 (R25). -/
def yellowness (r g b : Nat) : Int := max (-128) (min 127 (((r + g) / 2 : Nat) - (b : Int)))

/-- Stone index Q, saturated to 255 (R26). -/
def stoneIndex (nir l : Nat) : Nat := min 255 (64 * nir / (l + 16))

/-- Brightness cell Lq (R28). -/
def brightnessCell (l : Nat) : Nat := l / 8

/-- Yellowness cell Yq (R28). -/
def yellownessCell (yd : Int) : Nat := (yd + 128).toNat / 8

/-- Map index of a pixel word (R29). -/
def mapIndex (w : Word) : Nat :=
  let l := brightness (pixelRed w) (pixelGreen w) (pixelBlue w)
  let yd := yellowness (pixelRed w) (pixelGreen w) (pixelBlue w)
  brightnessCell l * 32 + yellownessCell yd

/-- Entry i of a colour map: byte (i mod 4) of word floor(i / 4) (R29). -/
def mapEntry (map : Vector Word 256) (i : Nat) : Nat := ((map[i / 4]?.getD 0).extractLsb' (8 * (i % 4)) 8).toNat

/-- The stone band (R30). -/
def stoneBand (g : GradeBlock) (q : Nat) (c : PixelClass) : PixelClass :=
  if c ≠ .bg ∧ g.stoneQLo ≤ q ∧ q ≤ g.stoneQHi then .stone else c

/-- The class of a pixel word under a table (R31). -/
def classify (t : ActiveTable) (w : Word) : PixelClass :=
  let l := brightness (pixelRed w) (pixelGreen w) (pixelBlue w)
  stoneBand t.grade (stoneIndex (pixelNir w) l) (PixelClass.ofCode (mapEntry t.colourMap (mapIndex w)))

/-- The class stored for a column; every stored class is BG until the column is written (R6). -/
def storedClass (view : Vector (Option PixelClass) 1024) (column : Nat) : PixelClass :=
  (view[column]?.join).getD .bg

/-- The rear column paired with a front column, if there is one (R33). -/
def pairedRear (offset : Int) (c : Nat) : Option Nat :=
  let c' := 1023 - (c : Int) + offset
  if 0 ≤ c' ∧ c' ≤ 1023 then some c'.toNat else none

/-- The merged class of a front column (R34, R35). -/
def mergedClass (a : Assembly) (offset : Int) (c : Nat) : PixelClass :=
  let front := storedClass a.front c
  if a.rearMode then
    match pairedRear offset c with
    | some c' => front.moreSevere (storedClass a.rear c')
    | none => front
  else front

/-- The merged class line of a complete line: 1,024 classes (R32, R34). -/
def mergeViews (a : Assembly) (offset : Int) : List PixelClass := (List.range 1024).map (mergedClass a offset)

/-- Seen count: seen front columns, and seen rear columns with rear mode on (R10). -/
def Assembly.seen (a : Assembly) : Nat :=
  a.front.toList.countP Option.isSome + (if a.rearMode then a.rear.toList.countP Option.isSome else 0)

/-- Expected count of seen columns (R10). -/
def Assembly.expectedCount (a : Assembly) : Nat := if a.rearMode then 2048 else 1024

end Sys2Proof.Machine
end

