-- ==== Sys2Proof/Machine/Lines.lean ====
section
/-! DEFINITION. One line's processing by a lane's OTU and GDU: the table's steps and the hand-overs in the order of R53. -/
namespace Sys2Proof.Machine

/-- Hands closed objects to the GDU in the order given (R53, R61). -/
def Lane.gradeObjects (x : Lane) (l : LaneId) : List OpenObject → Lane × List Record
  | [] => (x, [])
  | o :: os =>
    let a := x.gradeObject l o
    let b := a.1.gradeObjects l os
    (b.1, a.2 ++ b.2)

/-- The untracked runs of a line are counted and, under EJECT, handed to the GDU left to right; then the line's OVERFLOW_RUN
record is made (R49, R50, R51). -/
def Lane.overflowRuns (x : Lane) (l : LaneId) (line : LineNo) (runs : List LineRun) : Lane × List Record :=
  match runs with
  | [] => (x, [])
  | r :: rs =>
    let counted := x.count fun c => { c with untrackedRuns := c.untrackedRuns + BitVec.ofNat 32 runs.length }
    let eject := x.grade.overflowPolicy == 1
    let y := if eject then runs.foldl (fun y q => y.gradeOverflow line q) counted else counted
    (y, [.overflowRun l line eject runs.length r.first (rs.getLastD r).last (runs.foldl (fun n q => n + q.length) 0)])

/-- The OTU takes a data line (R42 to R53); `mixed` says that a swap came while the line was open (R36). -/
def Lane.dataLine (x : Lane) (l : LaneId) (line : LineNo) (mixed : Bool) (classes : List PixelClass) : Lane × List Record :=
  let t := (trackLine x.grade line classes x.objects).markFormed mixed
  let a := ({ x with objects := t.table } : Lane).gradeObjects l t.closed
  let b := a.1.overflowRuns l line t.untracked
  let c := b.1.gradeObjects l t.forced
  (c.1, a.2 ++ b.2 ++ c.2)

/-- The OTU takes a void line: every object is closed, in table order (R54). -/
def Lane.voidLine (x : Lane) (l : LaneId) : Lane × List Record :=
  ({ x with objects := [] } : Lane).gradeObjects l (x.objects.map (closeObject x.grade.maxArea))

end Sys2Proof.Machine
end

