-- ==== Sys2Proof/Machine/Recipe.lean ====
section
/-! DEFINITION. The Recipe Table Unit: staged bank, commit machine and swaps (section 7), and the completion of the command
that executes (R145), since the RTU's answers complete a TABLE_COMMIT. -/
namespace Sys2Proof.Machine

/-- Makes the one COMMAND_DONE of a command record (R147). -/
def State.answer (s : State) (r : CommandRecord) (status : CommandStatus) (detail : Word) : State :=
  s.record (.commandDone r.code r.laneField r.seq status detail)

/-- The executing command completes: its COMMAND_DONE is made and no command executes (R145). The pending command is
executed by `State.finishCommands`. -/
def State.completeCommand (s : State) (status : CommandStatus) (detail : Word) : State :=
  match s.cmu.executing with
  | some r => ({ s with cmu := { s.cmu with executing := none } } : State).answer r status detail
  | none => s

/-- The RTU answers the commit: its machine returns to IDLE and the command completes (R131, R132, R136, R137). -/
def State.endCommit (s : State) (status : CommandStatus) (detail : Word) : State :=
  ({ s with rtu := { s.rtu with commit := .idle } } : State).completeCommand status detail

/-- The commit machine takes a commit and begins its scan (R130). -/
def State.beginCommit (s : State) (expected : Word) (mask : BitVec 2) : State :=
  { s with rtu := { s.rtu with commit := .scanning expected mask s.now } }

/-- The word the scan has reached (R131): one word per reference clock since it began (log entry 18). -/
def State.scanReached (s : State) : Nat :=
  match s.rtu.commit with
  | .idle => 0
  | .scanning _ _ started => min (s.now - started) Config.scanClocks
  | .swapping _ _ => 0

/-- The running signature of the scan (R131, log entry 18). -/
def State.scanSignature (s : State) : Word :=
  signatureFrom Config.signatureSeed 0 (s.rtu.staged.toList.take s.scanReached)

/-- Whether a targeted lane waits for its swap point (R133, R134). -/
def State.swapWaiting (s : State) (l : LaneId) : Bool :=
  match s.rtu.commit with
  | .idle => false
  | .scanning _ _ _ => false
  | .swapping mask swapped => maskHas mask l && !maskHas swapped l

/-- Copies the staged bank into a lane's active bank, marks its open objects MIXED (R135, R55) and notes the swap at its open line
(R36). -/
def Lane.takeTable (x : Lane) (bank : Vector Word 1024) (l : LaneId) : Lane :=
  { x.markMixed with
    table := some (readTable bank l), assembly := x.assembly.map fun a => { a with mixed := true } }

/-- A lane that waits swaps; when every targeted lane has swapped, the commit is complete (R135, R137). -/
def State.swapLane (s : State) (l : LaneId) : State :=
  match s.rtu.commit with
  | .idle => s
  | .scanning _ _ _ => s
  | .swapping mask swapped =>
    if maskHas mask l && !maskHas swapped l then
      let t := s.modLane l fun x => x.takeTable s.rtu.staged l
      let done := swapped ||| laneBit l
      if done = mask then t.endCommit .ok (mask.setWidth 32)
      else { t with rtu := { t.rtu with commit := .swapping mask done } }
    else s

/-- A targeted lane swaps at once on entering SWAPPING in OFF, HOLD or FAULT, or with its clock WAITING (R133). -/
def State.swapAtOnce (s : State) (l : LaneId) : State :=
  if !(s.lane l).mode.sorting || decide ((s.lane l).clock.state = .waiting) then s.swapLane l else s

/-- The scan's end: the answer by R132, or SWAPPING (R133). -/
def State.endScan (s : State) : State :=
  match s.rtu.commit with
  | .idle => s
  | .swapping _ _ => s
  | .scanning expected mask started =>
    if started + Config.scanClocks ≤ s.now then
      let sig := signature s.rtu.staged
      if sig ≠ expected then s.endCommit .sigMismatch sig
      else
        match lowestInvalid s.rtu.staged mask 1024 with
        | some i => s.endCommit .tableInvalid (BitVec.ofNat 32 i)
        | none =>
          (({ s with rtu := { s.rtu with commit := .swapping mask 0 } } : State).swapAtOnce .lane0).swapAtOnce .lane1
    else s

/-- A staging write is merged into the staged bank (R126). -/
def State.mergeStaged (s : State) (offset : BitVec 10) (data : Word) (be : Enables) : State :=
  { s with rtu := { s.rtu with staged := s.rtu.staged.set offset.toNat (mergeBytes (s.rtu.staged[offset.toNat]) data be) } }

/-- An observed staging write: merged, and it ends a commit in SCANNING or SWAPPING (R126, R131, R136). -/
def State.stagingWritten (s : State) (offset : BitVec 10) (data : Word) (be : Enables) : State :=
  let t := s.mergeStaged offset data be
  match s.rtu.commit with
  | .idle => t
  | .scanning _ _ _ => t.endCommit .stagingChanged 0
  | .swapping _ swapped => t.endCommit .stagingChanged (swapped.setWidth 32)

end Sys2Proof.Machine
end

