-- ==== Sys2Proof/Machine/Modes.lean ====
section
/-! DEFINITION. Lane modes: the mode changes, the drain condition, the capture snapshot (section 8.4, 8.5), and the
follow-up steps an event can owe (log entry 8). -/
namespace Sys2Proof.Machine

/-! ### Capture -/

/-- The capture snapshot of a lane: its state goes to the capture buffer and the dump waits (R161, R180). -/
def State.takeCapture (s : State) (l : LaneId) : State :=
  let x := s.lane l
  let c : Capture :=
    { lane := l, seq := (s.cmu.executing.map CommandRecord.seq).getD 0, mode := x.mode, supplyGood := x.supplyGood
      clock := x.clock, expected := x.expected, assembly := x.assembly.map fun a => (a.line, a.seen), objects := x.objects
      firings := x.firings, valves := x.valves, age := s.events }
  { s with
    rwu := { s.rwu with capture := some c }
    cmu := { s.cmu with captureWait := none, captureDue := false } }

/-- Takes a capture that waits for this lane (R160: at a mode change, before the lane's blocks act). -/
def State.captureIfWaiting (s : State) (l : LaneId) : State :=
  if s.cmu.captureWait = some l then s.takeCapture l else s

/-- A CAPTURE_STATE executes: the snapshot is taken at once, or waits for the lane's line boundary (R160). -/
def State.beginCapture (s : State) (l : LaneId) : State :=
  let x := s.lane l
  if x.mode.sorting && !decide (x.clock.state = .waiting) then { s with cmu := { s.cmu with captureWait := some l } }
  else s.takeCapture l

/-! ### Mode changes -/

/-- The mode becomes `new` and the MODE_CHANGE record is made, before the lane's blocks act (R158). -/
def State.setMode (s : State) (l : LaneId) (new : LaneMode) (cause : ModeCause) (seq : BitVec 16) : State :=
  let x := s.lane l
  (s.setLane l { x with mode := new, drainDue := false }).record (.modeChange l x.mode new cause seq x.clock.ln)

/-- The LIU discards an open assembly without record (R17). -/
def Lane.discardAssembly (x : Lane) : Lane := { x with assembly := none }

/-- The clock becomes IDLE; LN, k, Pq and the episode count are kept (R108, R121, R125). DESIGN CHOICE: the line start time is
kept with them (log entry 32). DEDUCED: no deadline or synthetic time is pending afterwards (log entry 29). -/
def Clock.toIdle (c : Clock) : Clock := { c with state := .idle, coastDeadline := none, nextSynthetic := none }

/-- LANE_START seeds the clock (R110). -/
def Clock.seed (c : Clock) (firstLine nominalPeriod : Nat) : Clock :=
  { c with
    state := .waiting, pq := 16 * nominalPeriod, ln := BitVec.ofNat 32 firstLine - 1, k := 15, episode := 0
    coastDeadline := none, nextSynthetic := none }

/-- An accepted LANE_START (R148, R18, R110, R158). -/
def State.startLane (s : State) (l : LaneId) (firstLine nominalPeriod : Nat) (seq : BitVec 16) : State :=
  ((s.setMode l .run .start seq).modLane l fun x =>
    { x with
      assembly := none, expected := BitVec.ofNat 32 firstLine, clock := x.clock.seed firstLine nominalPeriod
      drainCount := 0 }).takeSnapshot l .modeChange

/-- LANE_HOLD accepted in RUN (R149). -/
def State.holdLane (s : State) (l : LaneId) (seq : BitVec 16) : State :=
  ((s.setMode l .drain .hold seq).modLane l fun x => { x with drainCount := 0 }).takeSnapshot l .modeChange

/-- LANE_RESUME accepted in HOLD or DRAIN (R150). -/
def State.resumeLane (s : State) (l : LaneId) (seq : BitVec 16) : State :=
  (s.setMode l .run .resume seq).takeSnapshot l .modeChange

/-- What LIU, OTU and EJU do at a stop or a fault (R17, R57, R99); the clock becomes IDLE (R120, R121). -/
def Lane.stopBlocks (x : Lane) (l : LaneId) (now : Nat) (reason : MissReason) : Lane × List Record :=
  let w := x.discardAssembly.abandonObjects.cancelFirings l now reason
  ({ w.1 with clock := w.1.clock.toIdle }, w.2)

/-- LANE_STOP from RUN, DRAIN, HOLD or FAULT (R151). -/
def State.stopLane (s : State) (l : LaneId) (seq : BitVec 16) : State :=
  let t := s.setMode l .off .stop seq
  (t.apply l ((t.lane l).stopBlocks l t.now .stopped)).takeSnapshot l .modeChange

/-- The lane's mode becomes FAULT on the loss of its clock (R157, R124, R160). -/
def State.faultLane (s : State) (l : LaneId) : State :=
  let t := (s.captureIfWaiting l).setMode l .fault .clockLost 0
  (t.apply l ((t.lane l).stopBlocks l t.now .clockLost)).takeSnapshot l .modeChange

/-- The lane enters HOLD with cause DRAINED (R156, R17, R160). -/
def State.enterHold (s : State) (l : LaneId) : State :=
  (((s.captureIfWaiting l).setMode l .hold .drained 0).modLane l Lane.discardAssembly).takeSnapshot l .modeChange

/-! ### The drain condition -/

/-- The drain condition (R156). -/
def Lane.drained (x : Lane) : Bool := decide (x.block.drainLines ≤ x.drainCount) && x.objects.isEmpty && x.quiet

/-- The CMU evaluates the condition of a lane in DRAIN at the end of an intake event that handed lines, and at a change of
the quiet report (R156). What it finds is kept for the step DRAIN_CONDITION (log entry 8). -/
def State.evaluateDrain (s : State) (l : LaneId) (wasQuiet : Bool) (handed : Nat) : State :=
  s.modLane l fun x =>
    if x.mode = .drain ∧ (0 < handed ∨ x.quiet ≠ wasQuiet) then { x with drainDue := x.drained } else x

/-! ### Follow-up steps -/

/-- The owed capture snapshot is taken (R160). -/
def State.settleCapture (s : State) : State :=
  match s.cmu.captureWait with
  | some l => if s.cmu.captureDue then s.takeCapture l else s
  | none => s

/-- The lane whose drain condition was found to hold enters HOLD (R156). -/
def State.settleDrain (s : State) (l : LaneId) : State :=
  if (s.lane l).mode = .drain ∧ (s.lane l).drainDue then s.enterHold l else s

/-- A lane that waits for its swap point and has left RUN and DRAIN swaps (R134). -/
def State.settleSwap (s : State) (l : LaneId) : State :=
  if (s.lane l).mode.sorting then s else s.swapLane l

end Sys2Proof.Machine
end

