-- ==== Sys2Proof/Machine/Mailbox.lean ====
section
/-! DEFINITION. The Command and Mode Unit's mailbox: the arrival of a go word, the judgement and execution of a command
record, and the pending slot (section 8.1 to 8.3). -/
namespace Sys2Proof.Machine

/-- The command becomes the executing command: it takes time (R144). -/
def State.execute (s : State) (r : CommandRecord) : State := { s with cmu := { s.cmu with executing := some r } }

/-- A command whose lane field is read: 2 and 3 are refused with detail 7 (R146). -/
def State.withLane (s : State) (r : CommandRecord) (f : LaneId → State) : State :=
  match laneOfField r.laneField with
  | some l => f l
  | none => s.answer r .badArgument 7

/-- An argument word as an unsigned number (R146). -/
def CommandRecord.arg (r : CommandRecord) (i : Fin 7) : Nat := (r.args[i]).toNat

/-- The mode code as a detail (R147). -/
def modeDetail (m : LaneMode) : Word := BitVec.ofNat 32 m.code

/-- LANE_START (R146, R148). -/
def State.commandStart (s : State) (r : CommandRecord) : State :=
  s.withLane r fun l =>
    if 65535 < r.arg 0 then s.answer r .badArgument 0
    else if r.arg 1 < 2500 ∨ 50000 < r.arg 1 then s.answer r .badArgument 1
    else if (s.lane l).mode ≠ .off then s.answer r .wrongMode (modeDetail (s.lane l).mode)
    else if (s.lane l).table = none then s.answer r .noTable 0
    else (s.startLane l (r.arg 0) (r.arg 1) r.seq).answer r .ok (modeDetail .run)

/-- LANE_HOLD (R146, R149). -/
def State.commandHold (s : State) (r : CommandRecord) : State :=
  s.withLane r fun l =>
    match (s.lane l).mode with
    | .run => (s.holdLane l r.seq).answer r .ok (modeDetail .drain)
    | .drain => s.answer r .ok (modeDetail .drain)
    | .hold => s.answer r .ok (modeDetail .hold)
    | .off => s.answer r .wrongMode (modeDetail .off)
    | .fault => s.answer r .wrongMode (modeDetail .fault)

/-- LANE_RESUME (R146, R150). -/
def State.commandResume (s : State) (r : CommandRecord) : State :=
  s.withLane r fun l =>
    match (s.lane l).mode with
    | .hold => (s.resumeLane l r.seq).answer r .ok (modeDetail .run)
    | .drain => (s.resumeLane l r.seq).answer r .ok (modeDetail .run)
    | .run => s.answer r .ok (modeDetail .run)
    | .off => s.answer r .wrongMode (modeDetail .off)
    | .fault => s.answer r .wrongMode (modeDetail .fault)

/-- LANE_STOP (R146, R151). -/
def State.commandStop (s : State) (r : CommandRecord) : State :=
  s.withLane r fun l =>
    if (s.lane l).mode = .off then s.answer r .ok (modeDetail .off)
    else (s.stopLane l r.seq).answer r .ok (modeDetail .off)

/-- TABLE_COMMIT (R146, R152). -/
def State.commandCommit (s : State) (r : CommandRecord) : State :=
  if r.arg 1 < 1 ∨ 3 < r.arg 1 then s.answer r .badArgument 1
  else (s.execute r).beginCommit r.args[0] (BitVec.ofNat 2 (r.arg 1))

/-- VALVE_TEST (R146, R153, R102). -/
def State.commandTest (s : State) (r : CommandRecord) : State :=
  s.withLane r fun l =>
    if h : r.arg 0 < 64 then
      if r.arg 1 < 1 ∨ 65535 < r.arg 1 then s.answer r .badArgument 1
      else
        let v : Fin 64 := ⟨r.arg 0, h⟩
        match (s.lane l).judgeTest v (r.arg 1) with
        | (.ok, d) => (s.modLane l fun x => x.startTest s.now v d).answer r .ok (BitVec.ofNat 32 d)
        | (status, d) => s.answer r status (BitVec.ofNat 32 d)
    else s.answer r .badArgument 0

/-- Clears the 31 counters of both lanes (R178). -/
def State.clearCounters (s : State) : State :=
  (s.modLane .lane0 fun x => { x with counters := {} }).modLane .lane1 fun x => { x with counters := {} }

/-- Sets the owed mark of a lane (R178). -/
def State.owe (s : State) (l : LaneId) : State :=
  { s with rwu := s.rwu.setReport l { s.rwu.report l with owed := true } }

/-- STATS_SNAPSHOT (R146, R154, R175, R178). -/
def State.commandStats (s : State) (r : CommandRecord) : State :=
  if 1 < r.arg 0 then s.answer r .badArgument 0
  else
    let t := (((s.execute r).commonWaits.takeSnapshot .lane0 .command).takeSnapshot .lane1 .command)
    let t := (t.owe .lane0).owe .lane1
    if r.arg 0 = 1 then t.clearCounters else t

/-- CAPTURE_STATE (R146, R160). -/
def State.commandCapture (s : State) (r : CommandRecord) : State := s.withLane r fun l => (s.execute r).beginCapture l

/-- A command record is judged and executed (R146). -/
def State.executeCommand (s : State) (r : CommandRecord) : State :=
  if r.code = 0x01 then s.commandStart r
  else if r.code = 0x02 then s.commandHold r
  else if r.code = 0x03 then s.commandResume r
  else if r.code = 0x04 then s.commandStop r
  else if r.code = 0x10 then s.commandCommit r
  else if r.code = 0x20 then s.commandTest r
  else if r.code = 0x30 then s.commandStats r
  else if r.code = 0x31 then s.commandCapture r
  else s.answer r .badCommand (r.code.setWidth 32)

/-- The command record a go word forms (R142). -/
def Cmu.recordOf (c : Cmu) (go : Word) : CommandRecord :=
  { code := goCode go, laneField := goLane go, seq := goSeq go, args := c.shadow }

/-- A go word arrives: executed at once in READY, held or superseding in EXECUTING (R144). -/
def State.goWordArrives (s : State) (go : Word) : State :=
  let r := s.cmu.recordOf go
  match s.cmu.executing with
  | none => s.executeCommand r
  | some _ =>
    let held := { s with cmu := { s.cmu with slot := some r } }
    match s.cmu.slot with
    | none => held
    | some old => held.answer old .superseded (r.seq.setWidth 32)

/-- After the executing command has completed, the pending command is executed (R145). A lane whose drain condition was
found to hold in the same event has entered HOLD before, and an event that hands lines or starts one has done so (log entry 10). -/
def State.finishCommands (s : State) : State :=
  match s.cmu.executing, s.cmu.slot with
  | none, some r =>
    let t := (s.settleDrain .lane0).settleDrain .lane1
    ({ t with cmu := { t.cmu with slot := none } } : State).executeCommand r
  | _, _ => s

/-- Takes every follow-up step the last event owes (log entry 8). DESIGN CHOICE: a dump and a HOLD snapshot owed together get
the same age (log entry 34). -/
def State.settle (s : State) : State :=
  ((((s.settleCapture.settleDrain .lane0).settleDrain .lane1).settleSwap .lane0).settleSwap .lane1).finishCommands

/-- Whether the last event owes a follow-up step. -/
def State.owes (s : State) : Bool :=
  (s.cmu.captureWait.isSome && s.cmu.captureDue) ||
    (decide (s.lane0.mode = .drain) && s.lane0.drainDue) || (decide (s.lane1.mode = .drain) && s.lane1.drainDue) ||
    (!s.lane0.mode.sorting && s.swapWaiting .lane0) || (!s.lane1.mode.sorting && s.swapWaiting .lane1) ||
    (s.cmu.executing.isNone && s.cmu.slot.isSome)

/-- A step begins: what the last event owes is taken, then time passes (log entries 1 and 8). -/
def State.begin (s : State) (after : Nat) : State := s.settle.pass after

end Sys2Proof.Machine
end

