-- ==== Sys2Proof/Machine/Intake.lean ====
section
/-! DEFINITION. The Line Intake Unit of a lane: headers, pixels, end words, the handing of lines, expiry and header tracking
(section 1), and what stands at the end of an intake event: interval snapshot, line boundary, drain condition. -/
namespace Sys2Proof.Machine

/-! ### Kinds of write and the judgement of a header -/

/-- The kinds of scan-ring write (R1). -/
inductive WriteKind where
  | header
  | malformedHeader
  | frontPixel (column : Nat)
  | rearPixel (column : Nat)
  | partialPixel
  | endWrite
  | partialEnd
  /-- A word that no write of the observation FIFO falls on (R1, R184). -/
  | unwatched
deriving DecidableEq, Repr

/-- Sorts an entry by its slot word, its byte enables and its marker (R1). -/
def FifoEntry.kind (e : FifoEntry) : WriteKind :=
  match slotPlace (slotWordOf e.offset) with
  | .header => if fullWrite e.be && markerOf e.data == Config.lineMarker then .header else .malformedHeader
  | .front c => if fullWrite e.be then .frontPixel c else .partialPixel
  | .rear c => if fullWrite e.be then .rearPixel c else .partialPixel
  | .endWord => if fullWrite e.be then .endWrite else .partialEnd
  | .unwatched => .unwatched

/-- The distance d of a header number from LN (R5). -/
def headerDistance (ln : LineNo) (h : BitVec 16) : BitVec 16 := numberOf ln - h

/-- What a header is found to be (R5). -/
inductive HeaderJudgement where
  | ahead
  | stale (line : LineNo)
  | accepted (line : LineNo)
deriving DecidableEq, Repr

/-- Reconstructs a header's line number and judges it against E (R5). -/
def judgeHeader (ln expected : LineNo) (h : BitVec 16) : HeaderJudgement :=
  let d := headerDistance ln h
  if 32768 ≤ d.toNat then .ahead
  else
    let n := ln - d.setWidth 32
    if lineBefore n expected then .stale n else .accepted n

/-! ### Small effects on a lane -/

/-- A stray is counted (R4, R9, R10). -/
def Lane.stray (x : Lane) : Lane := x.count fun c => { c with strays := c.strays + 1 }

/-- LOSS is set on an open assembly (R15). -/
def Lane.lossMark (x : Lane) : Lane := { x with assembly := x.assembly.map fun a => { a with loss := true } }

/-- The open line is damaged: it is counted and discarded (R7, R10, R13). -/
def Lane.damaged (x : Lane) : Lane :=
  ({ x with assembly := none } : Lane).count fun c => { c with linesDamaged := c.linesDamaged + 1 }

/-- A line is handed to the OTU: lines processed rises (R12), and in DRAIN the drain count (R156). -/
def Lane.lineHanded (x : Lane) : Lane :=
  { x with
    counters := { x.counters with linesProcessed := x.counters.linesProcessed + 1 }
    drainCount := if x.mode = .drain then min (x.drainCount + 1) Config.drainCountMax else x.drainCount }

/-- The further counts of a void line (R12). -/
def Counters.voidLine (c : Counters) (skipped : Bool) : Counters :=
  { c with linesVoid := c.linesVoid + 1, linesSkipped := if skipped then c.linesSkipped + 1 else c.linesSkipped }

/-- The assembly an accepted header sets up (R6). -/
def Lane.openLine (x : Lane) (slot : BitVec 4) (h : BitVec 16) (line : LineNo) : Lane :=
  { x with
    assembly := some
      { slot := slot, header := h, line := line, rearMode := x.block.rearEnable == 1, front := .replicate 1024 none
        rear := .replicate 1024 none, loss := false } }

/-- The LINE_FAULT record of a damaged line (R19). -/
def Assembly.faultRecord (a : Assembly) (l : LaneId) (reason : LineFaultReason) : Record :=
  .lineFault l reason a.slot a.header a.line a.seen

/-- The line an open assembly holds is damaged with a reason (R7, R10, R13, R19). -/
def State.damageLine (s : State) (l : LaneId) (a : Assembly) (reason : LineFaultReason) : State :=
  (s.modLane l Lane.damaged).record (a.faultRecord l reason)

/-! ### Handing lines to the tracker -/

/-- A void line is handed: a waiting swap first, then the counts, then the OTU (R12, R134, R54). -/
def State.handVoid (s : State) (l : LaneId) (skipped : Bool) : State :=
  let t := s.swapLane l
  t.apply l (((t.lane l).lineHanded.count fun c => c.voidLine skipped).voidLine l)

/-- A data line is handed (R12, R43), with the mark of a swap that came while it was open (R36). -/
def State.handData (s : State) (l : LaneId) (line : LineNo) (mixed : Bool) (classes : List PixelClass) : State :=
  s.apply l ((s.lane l).lineHanded.dataLine l line mixed classes)

/-- The skipped lines before a finished line are handed as void lines (R11). -/
def State.handSkipped (s : State) (l : LaneId) : Nat → State
  | 0 => s
  | n + 1 => (s.handVoid l true).handSkipped l n

/-- E is set (R11, R16). -/
def State.setExpected (s : State) (l : LaneId) (e : LineNo) : State := s.modLane l fun x => { x with expected := e }

/-! ### The judgement of one entry -/

/-- What R10 finds for the end word of an open line: the first reason that applies, or none for a complete line. -/
def Assembly.verdict (a : Assembly) (data : Word) : Option LineFaultReason :=
  if markerOf data ≠ Config.lineMarker ∨ numberOf data ≠ a.header then some .endMismatch
  else if a.seen < a.expectedCount then some .incomplete
  else if a.loss then some .loss
  else none

/-- An end write finishes the open line (R10, R11). The views are merged before any line is handed, and a swap that a skipped
line takes comes after the line is finished: it is no swap of an open line (R36, log entry 35). -/
def State.finishLine (s : State) (l : LaneId) (a : Assembly) (data : Word) : State :=
  let skipped := (lineDiff a.line (s.lane l).expected).toNat
  match a.verdict data with
  | some reason =>
    (((s.damageLine l a reason).handSkipped l skipped).handVoid l false).setExpected l (a.line + 1)
  | none =>
    let classes := mergeViews a (s.lane l).block.rearOffset
    (((s.modLane l Lane.discardAssembly).handSkipped l skipped).handData l a.line a.mixed classes).setExpected l (a.line + 1)

/-- An AHEAD header: counted and recorded (R5, R19). -/
def State.headerAhead (s : State) (l : LaneId) (slot : BitVec 4) (h : BitVec 16) : State :=
  (s.modLane l fun x => x.count fun c => { c with linesAhead := c.linesAhead + 1 }).record
    (.lineFault l .ahead slot h (s.lane l).clock.ln 0)

/-- A STALE header: counted and recorded (R5, R19). -/
def State.headerStale (s : State) (l : LaneId) (slot : BitVec 4) (h : BitVec 16) (line : LineNo) : State :=
  (s.modLane l fun x => x.count fun c => { c with linesStale := c.linesStale + 1 }).record
    (.lineFault l .stale slot h line 0)

/-- The judgement of a header with what an accepted one does (R5). -/
def State.judgedHeader (s : State) (l : LaneId) (slot : BitVec 4) (h : BitVec 16) (accept : LineNo → State) : State :=
  match judgeHeader (s.lane l).clock.ln (s.lane l).expected h with
  | .ahead => s.headerAhead l slot h
  | .stale n => s.headerStale l slot h n
  | .accepted n => accept n

/-- A header in RUN or DRAIN: an open line is damaged first, an accepted header opens its line after a waiting swap
(R5, R6, R7). -/
def State.sortingHeader (s : State) (l : LaneId) (slot : BitVec 4) (h : BitVec 16) : State :=
  let t := match (s.lane l).assembly with
    | some a => s.damageLine l a .restart
    | none => s
  t.judgedHeader l slot h fun n => (t.swapLane l).modLane l fun x => x.openLine slot h n

/-- A header in HOLD: an accepted one moves E (R16). -/
def State.trackedHeader (s : State) (l : LaneId) (slot : BitVec 4) (h : BitVec 16) : State :=
  s.judgedHeader l slot h fun n => s.setExpected l (n + 1)

/-- A pixel write in RUN or DRAIN: stored if a line is open in its slot (R8), else a stray (R9). -/
def Lane.frontPixel (x : Lane) (slot : BitVec 4) (column : Nat) (data : Word) : Lane :=
  match x.assembly with
  | some a =>
    if a.slot = slot then
      { x with assembly := some { a with front := a.front.setIfInBounds column (some (classify x.activeTable data)) } }
    else x.stray
  | none => x.stray

/-- A REAR pixel write needs rear mode as well (R8, R9). -/
def Lane.rearPixel (x : Lane) (slot : BitVec 4) (column : Nat) (data : Word) : Lane :=
  match x.assembly with
  | some a =>
    if a.slot = slot ∧ a.rearMode then
      { x with assembly := some { a with rear := a.rear.setIfInBounds column (some (classify x.activeTable data)) } }
    else x.stray
  | none => x.stray

/-- An end write in RUN or DRAIN (R10). -/
def State.endWord (s : State) (l : LaneId) (slot : BitVec 4) (data : Word) : State :=
  match (s.lane l).assembly with
  | some a => if a.slot = slot then s.finishLine l a data else s.modLane l Lane.stray
  | none => s.modLane l Lane.stray

/-- The judgement of an entry in RUN or DRAIN (R2). -/
def State.judgeSorting (s : State) (l : LaneId) (e : FifoEntry) : State :=
  let slot := slotOf e.offset
  match e.kind with
  | .header => s.sortingHeader l slot (numberOf e.data)
  | .malformedHeader => s.modLane l Lane.stray
  | .frontPixel c => s.modLane l fun x => x.frontPixel slot c e.data
  | .rearPixel c => s.modLane l fun x => x.rearPixel slot c e.data
  | .partialPixel => s.modLane l Lane.stray
  | .endWrite => s.endWord l slot e.data
  | .partialEnd => s.modLane l Lane.stray
  | .unwatched => s

/-- The judgement of an entry in HOLD: header tracking alone (R2, R16). -/
def State.judgeHolding (s : State) (l : LaneId) (e : FifoEntry) : State :=
  match e.kind with
  | .header => s.trackedHeader l (slotOf e.offset) (numberOf e.data)
  | .malformedHeader => s.modLane l Lane.stray
  | .frontPixel _ => s
  | .rearPixel _ => s
  | .partialPixel => s
  | .endWrite => s
  | .partialEnd => s
  | .unwatched => s

/-- An entry that leaves the observation FIFO is judged in the mode its lane then has (R1, R2). -/
def State.judgeEntry (s : State) (e : FifoEntry) : State :=
  let l := ringLane e.offset
  match (s.lane l).mode with
  | .off => s
  | .run => s.judgeSorting l e
  | .drain => s.judgeSorting l e
  | .hold => s.judgeHolding l e
  | .fault => s

/-! ### Line starts -/

/-- Expiry repeats while LN − E is at least data_wait (R13). `fuel` bounds the repetitions: LN − E falls by one at each. -/
def State.expire (s : State) (l : LaneId) : Nat → State
  | 0 => s
  | fuel + 1 =>
    let x := s.lane l
    if (x.block.dataWait : Int) ≤ lineDiff x.clock.ln x.expected then
      let t := match x.assembly with
        | some a => if a.line = x.expected then s.damageLine l a .lateEnd else s
        | none => s
      ((t.handVoid l false).setExpected l (x.expected + 1)).expire l fuel
    else s

/-- In HOLD E is raised by one while LN − E is at least data_wait (R16). -/
def Lane.trackExpected (x : Lane) : Nat → Lane
  | 0 => x
  | fuel + 1 =>
    if (x.block.dataWait : Int) ≤ lineDiff x.clock.ln x.expected then
      ({ x with expected := x.expected + 1 } : Lane).trackExpected fuel
    else x

/-- Repetitions that bring LN − E below every data_wait. -/
def Lane.linesBehind (x : Lane) : Nat := (lineDiff x.clock.ln x.expected).toNat + 1

/-- What a line start does at the LIU (R13, R16). -/
def State.intakeLineStart (s : State) (l : LaneId) : State :=
  let fuel := (s.lane l).linesBehind
  match (s.lane l).mode with
  | .off => s
  | .run => s.expire l fuel
  | .drain => s.expire l fuel
  | .hold => s.modLane l fun x => x.trackExpected fuel
  | .fault => s

/-! ### The end of an intake event -/

/-- The lane's statistics interval in lines (R174). -/
def Lane.interval (x : Lane) : Nat := 1024 * 4 ^ x.block.statsIntervalCode

/-- Lines handed by an event, from the counts before and after it. -/
def linesHanded (before after : Word) : Nat := (after - before).toNat

/-- The interval snapshot, when the event has handed lines and reached or passed a multiple of the interval (R174). -/
def State.intervalSnapshot (s : State) (l : LaneId) (before : Word) (handed : Nat) : State :=
  let i := (s.lane l).interval
  if 0 < handed ∧ i ≤ before.toNat % i + handed then s.takeSnapshot l .interval else s

/-- The end of an event that handed lines is a line boundary of the lane (R160). -/
def State.lineBoundary (s : State) (l : LaneId) (handed : Nat) : State :=
  if 0 < handed ∧ s.cmu.captureWait = some l then { s with cmu := { s.cmu with captureDue := true } } else s

/-- The end of an intake event of a lane; `before` is the lane at its start (R174, R160, R156, R145). DESIGN CHOICE: a
CAPTURE_STATE that a completed commit sets free in this event is executed after the event's own line boundary, so it waits for
the next one (log entry 36). -/
def State.endIntake (s : State) (l : LaneId) (before : Lane) : State :=
  let count := before.counters.linesProcessed
  let handed := linesHanded count (s.lane l).counters.linesProcessed
  (((s.intervalSnapshot l count handed).lineBoundary l handed).evaluateDrain l before.quiet handed).finishCommands

/-! ### Swap points at the head of the observation FIFO -/

/-- Whether an entry at the head of the FIFO brings its lane to a swap point: it opens a line (R6), or it finishes a line
that is handed as a void line or behind skipped ones (R12). -/
def State.entryBringsSwap (s : State) (l : LaneId) (e : FifoEntry) : Bool :=
  let x := s.lane l
  match e.kind with
  | .header =>
    match judgeHeader x.clock.ln x.expected (numberOf e.data) with
    | .accepted _ => true
    | .ahead => false
    | .stale _ => false
  | .endWrite =>
    match x.assembly with
    | some a =>
      decide (a.slot = slotOf e.offset) && ((a.verdict e.data).isSome || decide (0 < lineDiff a.line x.expected))
    | none => false
  | .malformedHeader => false
  | .frontPixel _ => false
  | .rearPixel _ => false
  | .partialPixel => false
  | .partialEnd => false
  | .unwatched => false

/-- Whether the head of the observation FIFO brings a lane in RUN or DRAIN to its swap point (R134, log entry 9). -/
def State.atSwapPoint (s : State) (l : LaneId) : Bool :=
  match s.ptu.fifo with
  | e :: _ => (s.lane l).mode.sorting && decide (ringLane e.offset = l) && s.entryBringsSwap l e
  | [] => false

end Sys2Proof.Machine
end

