-- ==== Sys2Proof/Machine/Clock.lean ====
section
/-! DEFINITION. The Line Clock Unit of a lane: ticks, line starts, trigger edges, coasting and the loss of the clock
(section 6). The LCU's own steps of a line start are taken first, and the line start then reaches the LIU (log entry 12). -/
namespace Sys2Proof.Machine

/-! ### Parts of the clock -/

/-- Changes a lane's clock. -/
def State.modClock (s : State) (l : LaneId) (f : Clock → Clock) : State := s.modLane l fun x => { x with clock := f x.clock }

/-- The coast deadline after an accepted edge (R111, R112, R118, R119). -/
def Clock.deadlineAfter (c : Clock) (edge : Nat) : Nat := edge + 9 * c.period / 8

/-- The clock becomes LOCKED at an edge (R111, R118, R119). -/
def Clock.lock (c : Clock) (edge : Nat) : Clock :=
  { c with state := .locked, coastDeadline := some (c.deadlineAfter edge), nextSynthetic := none, episode := 0 }

/-- A new line begins at a time: LN rises, k becomes 0 (R111, R112, R117, R118). -/
def Clock.newLine (c : Clock) (stamp : Nat) : Clock := { c with ln := c.ln + 1, k := 0, lineStart := stamp }

/-- Whether the clock takes ticks: LOCKED or COASTING (R108, R114). -/
def ClockState.ticking : ClockState → Bool
  | .idle => false
  | .waiting => false
  | .locked => true
  | .coasting => true
  | .lost => false

/-- The time at which tick k of the current line falls due (R114). -/
def Clock.tickTimeOf (c : Clock) (k : Nat) : Nat := c.lineStart + k * c.pq / 256

/-- Whether the next tick of the current line has fallen due (R114). -/
def Clock.tickDue (c : Clock) (now : Nat) : Bool :=
  c.state.ticking && decide (c.k < 15) && decide (c.tickTimeOf (c.k + 1) ≤ now)

/-- The average's step for a distance M within the band, saturated (R113). -/
def averagePq (pq m : Nat) : Nat :=
  (max (Config.pqMin : Int) (min (Config.pqMax : Int) ((pq : Int) + (16 * (m : Int) - (pq : Int)) / 8))).toNat

/-- What the distance M of an accepted edge in LOCKED does to Pq and to the jitter count (R113). An edge above the band
changes neither (log entry 14). -/
def Lane.measureEdge (x : Lane) (m : Nat) : Lane :=
  let p := x.clock.period
  if m < 7 * p / 8 then x.count fun c => { c with jitter := c.jitter + 1 }
  else if m ≤ 9 * p / 8 then { x with clock := { x.clock with pq := averagePq x.clock.pq m } }
  else x

/-- A CLOCK_EVENT record, with LN and P as the clock holds them (R122). -/
def State.recordClock (s : State) (l : LaneId) (event : ClockState) (kind : Option LockKind) (episode : Nat) : State :=
  let c := (s.lane l).clock
  s.record (.clockEvent l event kind episode c.ln c.period)

/-! ### Ticks -/

/-- Tick k of the current line is taken and handed to the EJU (R114, R86). -/
def State.tickOnly (s : State) (l : LaneId) (k : Nat) : State :=
  s.modLane l fun x =>
    ({ x with clock := { x.clock with k := k } } : Lane).ejectorTick s.now (tickTime x.clock.ln k)

/-- A tick with the CMU's evaluation at a change of the quiet report (R101, R156). -/
def State.takeTick (s : State) (l : LaneId) (k : Nat) : State := (s.tickOnly l k).evaluateDrain l (s.lane l).quiet 0

/-- `n` ticks from k on are taken at once, in increasing order. A drain condition met at one of them takes the lane to HOLD
at that tick (R112, log entry 13), and a swap that waits for the lane is taken there (R134). DEDUCED: if that swap completes a
commit, the pending command is executed at the end of the clock's event, after its line start (R145, log entry 10). -/
def State.ticksFrom (s : State) (l : LaneId) (k : Nat) : Nat → State
  | 0 => s
  | n + 1 => (((s.takeTick l k).settleDrain l).settleSwap l).ticksFrom l (k + 1) n

/-- Every tick of the current line not yet taken is taken (R112, R117, R118). -/
def State.remainingTicks (s : State) (l : LaneId) : State :=
  s.ticksFrom l ((s.lane l).clock.k + 1) (15 - (s.lane l).clock.k)

/-- Every further tick whose time has been reached is taken; at most `n` of them (R117). -/
def State.reachedTicks (s : State) (l : LaneId) : Nat → State
  | 0 => s
  | n + 1 =>
    let c := (s.lane l).clock
    if c.tickDue s.now then (s.takeTick l (c.k + 1)).reachedTicks l n else s

/-- A new line begins with its tick 0 (R111, R112, R117, R118). -/
def State.beginLine (s : State) (l : LaneId) (stamp : Nat) : State := (s.modClock l fun c => c.newLine stamp).takeTick l 0

/-- The line start reaches the LIU as one event (R112, R115). -/
def State.reachIntake (s : State) (l : LaneId) : State := (s.intakeLineStart l).endIntake l (s.lane l)

/-! ### Trigger edges -/

/-- The first edge in WAITING (R111). -/
def State.firstEdge (s : State) (l : LaneId) : State :=
  let t := (s.beginLine l s.now).modClock l fun c => c.lock s.now
  (t.recordClock l .locked (some .first) 0).reachIntake l

/-- An accepted edge in LOCKED (R112). -/
def State.lockedEdge (s : State) (l : LaneId) : State :=
  let m := s.now - (s.lane l).clock.lineStart
  let measured := (s.remainingTicks l).modLane l fun x => x.measureEdge m
  ((measured.beginLine l s.now).modClock l fun c => { c with coastDeadline := some (c.deadlineAfter s.now) }).reachIntake l

/-- An accepted edge in COASTING starts a new line (R118). -/
def State.relockNewLine (s : State) (l : LaneId) : State :=
  let episode := (s.lane l).clock.episode
  let t := ((s.remainingTicks l).beginLine l s.now).modClock l fun c => c.lock s.now
  (t.recordClock l .locked (some .newLine) episode).reachIntake l

/-- An accepted edge in COASTING re-anchors the current synthetic line (R119). -/
def State.reAnchor (s : State) (l : LaneId) : State :=
  let episode := (s.lane l).clock.episode
  let t := s.modClock l fun c => { c.lock s.now with lineStart := s.now }
  t.recordClock l .locked (some .reAnchor) episode

/-- A glitch is counted (R109). -/
def Lane.glitch (x : Lane) : Lane := x.count fun c => { c with glitches := c.glitches + 1 }

/-- Whether an edge is a glitch (R109). -/
def Clock.isGlitch (c : Clock) (now : Nat) : Bool := decide (now - c.lineStart < Config.glitchClocks)

/-- A rising edge on the lane's trigger input (R107, R108, R109). -/
def State.edge (s : State) (l : LaneId) : State :=
  let c := (s.lane l).clock
  match c.state with
  | .idle => s
  | .waiting => s.firstEdge l
  | .locked => if c.isGlitch s.now then s.modLane l Lane.glitch else s.lockedEdge l
  | .coasting =>
    if c.isGlitch s.now then s.modLane l Lane.glitch
    else if c.period / 2 ≤ s.now - c.lineStart then s.relockNewLine l
    else s.reAnchor l
  | .lost => s

/-! ### Coasting -/

/-- A synthetic line start is taken (R117 steps 1 to 4). -/
def State.syntheticStart (s : State) (l : LaneId) (stamp : Nat) : State :=
  let t := ((s.remainingTicks l).beginLine l stamp).reachedTicks l 15
  (t.modClock l fun c => { c with episode := c.episode + 1, nextSynthetic := some (stamp + c.period) }).reachIntake l

/-- The clock is lost: LOST, its record, and the lane's FAULT (R120, R157). -/
def State.loseClock (s : State) (l : LaneId) : State :=
  let t := s.modClock l fun c => { c with state := .lost, nextSynthetic := none }
  (t.recordClock l .lost none (t.lane l).clock.episode).faultLane l

/-- Entering COASTING: the episode begins and is counted (R116). -/
def Lane.enterCoasting (x : Lane) : Lane :=
  { x with
    counters := { x.counters with coastEpisodes := x.counters.coastEpisodes + 1 }
    clock := { x.clock with state := .coasting, coastDeadline := none, episode := 0 } }

/-- The coast deadline falls due (R116). The record carries LN after the event (R122, log entry 12). -/
def State.coast (s : State) (l : LaneId) : State :=
  let c := (s.lane l).clock
  let t := (s.modLane l Lane.enterCoasting).record (.clockEvent l .coasting none 0 (c.ln + 1) c.period)
  t.syntheticStart l (c.lineStart + c.period)

/-- Whether a moment has been set and reached. -/
def reached (due : Option Nat) (now : Nat) : Bool :=
  match due with
  | some t => decide (t ≤ now)
  | none => false

/-- The coast deadline, if it has fallen due in LOCKED (R116). -/
def State.deadlineFalls (s : State) (l : LaneId) : State :=
  let c := (s.lane l).clock
  if c.state = .locked ∧ reached c.coastDeadline s.now then s.coast l else s

/-- The next synthetic time, if it has fallen due in COASTING: a synthetic line start, or the loss (R117, R120). -/
def State.syntheticFalls (s : State) (l : LaneId) : State :=
  let x := s.lane l
  match x.clock.nextSynthetic with
  | some stamp =>
    if x.clock.state = .coasting ∧ stamp ≤ s.now then
      if x.block.coastLimit ≤ x.clock.episode then s.loseClock l else s.syntheticStart l stamp
    else s
  | none => s

/-- The lane's next tick, if it has fallen due (R114). -/
def State.tickFalls (s : State) (l : LaneId) : State :=
  let c := (s.lane l).clock
  if c.tickDue s.now then s.takeTick l (c.k + 1) else s

end Sys2Proof.Machine
end

