-- ==== Sys2Proof/Machine/ClockSteps.lean ====
section
/-! DEFINITION. The meanings of the line clock's rows: TRIGGER_EDGE, TICK, COAST_DEADLINE, SYNTHETIC_LINE_START. -/
namespace Sys2Proof.Machine

/-- TRIGGER_EDGE (R107 to R113, R118, R119). -/
def execTriggerEdge (after : Nat) (lane : LaneId) (s : State) : Host.Outcome State Fault Refusal :=
  .next ((s.begin after).edge lane)

/-- TICK (R114). -/
def execTick (after : Nat) (lane : LaneId) (s : State) : Host.Outcome State Fault Refusal :=
  .next ((s.begin after).tickFalls lane)

/-- COAST_DEADLINE (R116). -/
def execCoastDeadline (after : Nat) (lane : LaneId) (s : State) : Host.Outcome State Fault Refusal :=
  .next ((s.begin after).deadlineFalls lane)

/-- SYNTHETIC_LINE_START (R117, R120). -/
def execSyntheticLineStart (after : Nat) (lane : LaneId) (s : State) : Host.Outcome State Fault Refusal :=
  .next ((s.begin after).syntheticFalls lane)

end Sys2Proof.Machine
end

