-- ==== Sys2Proof/Machine/Records.lean ====
section
/-! DEFINITION. The words the part writes: records (R199, R200), statistics blocks (R201) and the capture dump (R203). -/
namespace Sys2Proof.Machine

/-- A field of a word: the low `width` bits of a number, at bit `lsb` (R199). -/
def field (lsb width : Nat) (v : Nat) : Word := ((BitVec.ofNat width v).setWidth 32) <<< lsb

/-- The low word of a tick time. -/
def tickLow (t : TickTime) : Word := t.setWidth 32

/-- The high word of a tick time in a capture dump: bits 35..32 in bits 3..0 (R199). -/
def tickHigh (t : TickTime) : Word := (t.extractLsb' 32 4).setWidth 32

/-- Kind code of a record (R171). -/
def Record.kindCode : Record → Nat
  | .resetDone _ _ => 0x01
  | .commandDone _ _ _ _ _ => 0x02
  | .modeChange _ _ _ _ _ _ => 0x03
  | .clockEvent _ _ _ _ _ _ => 0x04
  | .supplyEvent _ _ _ _ => 0x05
  | .lineFault _ _ _ _ _ _ => 0x06
  | .objectRejected _ _ => 0x10
  | .overflowRun _ _ _ _ _ _ _ => 0x11
  | .firingsCancelled _ _ _ _ _ => 0x12
  | .valveLimit _ _ _ _ _ _ _ => 0x13

/-- Lane field of a record's header (R171). -/
def Record.headerLane : Record → Nat
  | .resetDone _ _ => 0
  | .commandDone _ laneField _ _ _ => laneField.toNat
  | .modeChange l _ _ _ _ _ => laneNumber l
  | .clockEvent l _ _ _ _ _ => laneNumber l
  | .supplyEvent l _ _ _ => laneNumber l
  | .lineFault l _ _ _ _ _ => laneNumber l
  | .objectRejected l _ => laneNumber l
  | .overflowRun l _ _ _ _ _ _ => laneNumber l
  | .firingsCancelled l _ _ _ _ => laneNumber l
  | .valveLimit l _ _ _ _ _ _ => laneNumber l

/-- Words 1 to 7 of a record (section 11.4). -/
def Record.content : Record → List Word
  | .resetDone fs warm =>
    [field 16 16 Config.partIdentity.toNat ||| field 0 8 Config.partRevision.toNat, field 0 2 fs.toNat,
      field 0 1 (flagBit warm 0), 0, 0, 0, 0]
  | .commandDone code lf seq status detail =>
    [goWord code 0 lf seq, field 0 8 status.code, detail, 0, 0, 0, 0]
  | .modeChange _ before after cause seq ln =>
    [field 0 3 before.code, field 0 3 after.code, field 0 3 cause.code, field 0 16 seq.toNat, ln, 0, 0]
  | .clockEvent _ event kind episode ln period =>
    [field 0 3 event.code, field 0 2 (lockKindCode kind), field 0 8 episode, ln, field 0 16 period, 0, 0]
  | .supplyEvent _ restored count mode =>
    [field 0 1 (flagBit restored 0), field 0 16 count, field 0 3 mode.code, 0, 0, 0, 0]
  | .lineFault _ reason slot header line seen =>
    [field 0 3 reason.code, field 16 4 slot.toNat ||| field 0 16 header.toNat, line, field 0 12 seen, 0, 0, 0]
  | .objectRejected _ r =>
    [r.firstLine, r.lastLine, field 16 10 r.cmin ||| field 0 10 r.cmax, field 0 18 r.area,
      field 24 8 r.reason.code ||| field 16 8 r.flags ||| field 8 8 r.firstMiss.code ||| field 0 8 r.firstValve,
      field 24 8 r.planned ||| field 16 8 r.scheduled ||| field 8 8 r.missed, tickLow r.openTick]
  | .overflowRun _ line eject runs first last columns =>
    [line, field 0 1 (flagBit eject 0), field 0 10 runs, field 16 10 first ||| field 0 10 last, field 0 11 columns, 0, 0]
  | .firingsCancelled _ reason queued pending openings =>
    [field 0 8 reason.code, field 0 7 queued, field 0 7 pending, field 0 7 openings, 0, 0, 0]
  | .valveLimit _ valve test tag openTick closeTick maxOnUs =>
    [field 0 6 valve.val, field 0 1 (flagBit test 0), tag, tickLow openTick, tickLow closeTick, field 0 15 maxOnUs, 0]

/-- The eight words of a queued record, the header first (R200). -/
def QueuedRecord.words (q : QueuedRecord) : List Word :=
  (field 24 8 q.record.kindCode ||| field 16 2 q.record.headerLane ||| field 0 8 q.drops) :: q.record.content

/-- First offset of the result ring (9.2). -/
def ringBase : Nat := 0x1000
/-- Offset of the common block, whose word 0 is the PI word (R201). -/
def commonBase : Nat := 0x2000
/-- First offset of the capture area (R203). -/
def captureBase : Nat := 0x3000

/-- First offset of a lane's statistics block (R201). -/
def laneBlockBase : LaneId → Nat
  | .lane0 => 0x2010
  | .lane1 => 0x2040

/-- Words placed in increasing offset from a base. -/
def placeFrom (base : Nat) : List Word → List (FrameOffset × Word)
  | [] => []
  | w :: ws => (BitVec.ofNat 18 base, w) :: placeFrom (base + 1) ws

/-- The PI word: PI in bits 8..0 (R201). -/
def piWord (pi : BitVec 9) : Word := pi.setWidth 32

/-- The nine words of a ring record unit: the record into its slot, then the PI word (R167). -/
def ringRecordWords (q : QueuedRecord) (slot : BitVec 9) : List (FrameOffset × Word) :=
  placeFrom (ringBase + 8 * slot.toNat) q.words ++ placeFrom commonBase [piWord slot]

/-- The counters in the order of R177 and R201, words 1 to 31 of a lane block. -/
def Counters.words (c : Counters) : List Word :=
  [c.linesProcessed, c.linesVoid, c.linesSkipped, c.linesDamaged, c.linesStale, c.linesAhead, c.strays, c.lostWrites,
    c.objectsClosed, c.objectsAbandoned, c.untrackedRuns, c.accepted, c.fragments, c.rejectedStone, c.rejectedForeign,
    c.rejectedLong, c.rejectedDark, c.rejectedYellow, c.rejectedChalk, c.firingsOpened, c.missedNoValve, c.missedLate,
    c.missedValveBusy, c.missedQueueFull, c.missedSupply, c.missedStopped, c.missedClockLost, c.valveLimitTrips, c.glitches,
    c.jitter, c.coastEpisodes]

/-- The 48 words of a lane block (R176, R201). -/
def laneBlockWords (s : Snapshot) (generation : Word) : List Word :=
  [generation] ++ s.counters.words ++
    [field 0 3 s.mode.code, field 0 3 s.clockState.code, field 0 16 s.period, s.ln, field 0 2 s.cause.code] ++
    List.replicate 10 0 ++ [generation]

/-- The 16 words of the common block (R179, R201). -/
def commonBlockWords (pi : BitVec 9) (frameSelect : BitVec 2) (warm : Bool) (dropped : Word) : List Word :=
  [piWord pi, field 16 16 Config.partIdentity.toNat ||| field 0 8 Config.partRevision.toNat, field 0 2 frameSelect.toNat,
    field 0 1 (flagBit warm 0), dropped] ++ List.replicate 11 0

/-- The 12 words of an object's place in a dump (R203). -/
def OpenObject.words (o : OpenObject) : List Word :=
  [field 24 8 o.slotId ||| field 0 2 (flagBit o.mixed 0 + flagBit o.merged 1), o.firstLine, o.lastLine,
    field 16 10 o.spanStart ||| field 0 10 o.spanEnd, field 16 10 o.cmin ||| field 0 10 o.cmax, field 0 18 o.area,
    field 0 18 o.counts.sound, field 0 18 o.counts.chalk, field 0 18 o.counts.yellow, field 0 18 o.counts.dark,
    field 0 18 o.counts.foreign, field 0 18 o.counts.stone]

/-- The 8 words of a firing queue entry's place in a dump (R203). -/
def Firing.words (f : Firing) : List Word :=
  [field 24 6 f.valve.val ||| field 16 3 f.flags ||| field 0 8 f.joined, tickLow f.openTick, tickHigh f.openTick,
    tickLow f.closeTick, tickHigh f.closeTick, f.tag, 0, 0]

/-- Words 0 to 2 of a valve's place: phase, and of the current opening source, JOINED and close tick (R203). -/
def ValvePhase.words (p : ValvePhase) : List Word :=
  let opening := fun (o : Opening) =>
    match o.source with
    | .firing f => [field 24 2 p.code ||| field 0 8 f.joined, tickLow f.closeTick, tickHigh f.closeTick]
    | .test _ => [field 24 2 p.code ||| field 16 1 1, 0, 0]
  match p with
  | .closed => [field 24 2 p.code, 0, 0]
  | .boost o => opening o
  | .sustain o _ _ => opening o
  | .recover _ _ _ => [field 24 2 p.code, 0, 0]

/-- The 16 words of a valve's place in a dump (R203). -/
def Valve.words (v : Valve) : List Word :=
  v.phase.words ++
    (match v.pending with
      | some f => (1 : Word) :: f.words
      | none => List.replicate 9 0) ++
    List.replicate 4 0

/-- Words cut or filled up with zeros to a length. -/
def padTo (n : Nat) (ws : List Word) : List Word := (ws ++ List.replicate n 0).take n

/-- The 4,096 words of a capture dump (R203). -/
def captureWords (c : Capture) (generation : Word) : List Word :=
  [generation, field 0 1 (laneNumber c.lane), field 0 16 c.seq.toNat, field 0 3 c.mode.code, field 0 1 (flagBit c.supplyGood 0),
    field 0 3 c.clock.state.code, c.clock.ln, field 0 4 c.clock.k, field 0 20 c.clock.pq, field 0 8 c.clock.episode, c.expected,
    field 0 1 (flagBit c.assembly.isSome 0), (c.assembly.map Prod.fst).getD 0,
    field 0 12 ((c.assembly.map Prod.snd).getD 0), field 0 6 c.objects.length, field 0 7 c.firings.length] ++
    List.replicate 48 0 ++
    padTo 576 (c.objects.flatMap OpenObject.words) ++
    padTo 768 (c.firings.flatMap Firing.words) ++
    c.valves.toList.flatMap Valve.words ++
    List.replicate 1663 0 ++ [generation]

end Sys2Proof.Machine
end

