-- ==== Sys2Proof/Machine/Writer.lean ====
section
/-! DEFINITION. The Result Writer Unit's writer: the choice of a unit, the handing of its words, and what the report of a
written word brings about (sections 9.2, 9.3, R192). -/
namespace Sys2Proof.Machine

/-! ### The choice -/

/-- The block units (R169). -/
inductive BlockUnit where
  | common
  | laneBlock (lane : LaneId)
  | dump
deriving DecidableEq, Repr

/-- The waiting block units with their ages, in the order in which equal ages are chosen (R169). -/
def Rwu.waitingBlocks (w : Rwu) : List (Nat × BlockUnit) :=
  (w.commonWaiting.map fun a => (a, BlockUnit.common)).toList ++
    (w.report0.snapshot.map fun p => (p.age, BlockUnit.laneBlock .lane0)).toList ++
    (w.report1.snapshot.map fun p => (p.age, BlockUnit.laneBlock .lane1)).toList ++
    (w.capture.map fun c => (c.age, BlockUnit.dump)).toList

/-- The oldest of the waiting block units, the first of equals (R169). -/
def oldestBlock : List (Nat × BlockUnit) → Option (Nat × BlockUnit)
  | [] => none
  | b :: bs =>
    match oldestBlock bs with
    | none => some b
    | some c => if c.1 < b.1 then some c else some b

/-- Whether the ring has space: the slot after PI differs from CI (R166). -/
def ringHasSpace (pi ci : BitVec 9) : Bool := pi + 1 != ci

/-- The unit becomes the unit in progress. -/
def Rwu.beginUnit (w : Rwu) (kind : UnitKind) (words : List (FrameOffset × Word)) : Rwu :=
  { w with unit := some { kind := kind, toHand := words, unreported := words.length } }

/-- The common block is chosen; its content is formed now (R179). -/
def Rwu.chooseCommon (w : Rwu) (frameSelect : BitVec 2) : Rwu :=
  ({ w with commonWaiting := none } : Rwu).beginUnit .commonBlock
    (placeFrom commonBase (commonBlockWords w.producerIndex frameSelect w.resetWarm w.droppedTotal))

/-- A lane block is chosen: its snapshot leaves the buffer and the lane generation rises (R173, R176). -/
def Rwu.chooseLane (w : Rwu) (l : LaneId) : Rwu :=
  let r := w.report l
  match r.snapshot with
  | some p =>
    let generation := r.generation + 1
    (w.setReport l { r with snapshot := none, generation := generation }).beginUnit (.laneBlock l r.owed)
      (placeFrom (laneBlockBase l) (laneBlockWords p generation))
  | none => w

/-- The capture dump is chosen: the capture generation rises (R162, R180). DEDUCED: the capture buffer is empty from the choice
on, as R173 says of a snapshot buffer (log entry 37). -/
def Rwu.chooseDump (w : Rwu) : Rwu :=
  match w.capture with
  | some c =>
    let generation := w.captureGeneration + 1
    ({ w with capture := none, captureGeneration := generation } : Rwu).beginUnit .captureDump
      (placeFrom captureBase (captureWords c generation))
  | none => w

/-- A ring record is chosen: the head record leaves the queue for the slot after PI (R166, R167). -/
def Rwu.chooseRecord (w : Rwu) : Rwu :=
  match w.queue with
  | q :: rest =>
    let slot := w.producerIndex + 1
    ({ w with queue := rest } : Rwu).beginUnit (.ringRecord slot) (ringRecordWords q slot)
  | [] => w

/-- The idle writer chooses its next unit (R169). -/
def Rwu.choose (w : Rwu) (ci : BitVec 9) (frameSelect : BitVec 2) : Rwu :=
  if w.unit.isSome then w
  else if !w.queue.isEmpty && ringHasSpace w.producerIndex ci then w.chooseRecord
  else
    match oldestBlock w.waitingBlocks with
    | some (_, .common) => w.chooseCommon frameSelect
    | some (_, .laneBlock l) => w.chooseLane l
    | some (_, .dump) => w.chooseDump
    | none => w

/-- The writer's choice in the part. -/
def State.chooseUnit (s : State) : State := { s with rwu := s.rwu.choose s.cmu.consumerIndex s.ptu.frameSelect }

/-! ### Handing words -/

/-- The unit in progress hands its next word when the writer queue holds fewer than 16 (R192). -/
def State.handWord (s : State) : State :=
  match s.rwu.unit with
  | some u =>
    match u.toHand with
    | w :: rest =>
      if s.ptu.writerQueue.length < Config.writerQueuePlaces then
        { s with
          rwu := { s.rwu with unit := some { u with toHand := rest } }
          ptu := { s.ptu with writerQueue := s.ptu.writerQueue ++ [⟨w.1, w.2, s.now⟩] } }
      else s
    | [] => s
  | none => s

/-! ### Reports -/

/-- Clears a lane's owed mark (R178). -/
def Rwu.clearOwed (w : Rwu) (l : LaneId) : Rwu := w.setReport l { w.report l with owed := false }

/-- Whether an executing STATS_SNAPSHOT has both owed marks clear (R178). -/
def State.snapshotWritten (s : State) : Bool :=
  !s.rwu.report0.owed && !s.rwu.report1.owed && decide (s.cmu.executing.map CommandRecord.code = some 0x30)

/-- The clear flag of the executing command, its detail (R147, R154). -/
def State.clearFlag (s : State) : Word := (s.cmu.executing.map fun r => r.args[0]).getD 0

/-- The unit is complete at the report of its last word (R167, R169, R178, R180). -/
def State.completeUnit (s : State) (kind : UnitKind) : State :=
  let idle : State := { s with rwu := { s.rwu with unit := none } }
  match kind with
  | .ringRecord slot => { idle with rwu := { idle.rwu with producerIndex := slot } }
  | .commonBlock => idle
  | .laneBlock l answersOwed =>
    if answersOwed then
      let t : State := { idle with rwu := idle.rwu.clearOwed l }
      if t.snapshotWritten then t.completeCommand .ok t.clearFlag else t
    else idle
  | .captureDump => idle.completeCommand .ok idle.rwu.captureGeneration

/-- The PTU reports a word written (R192). -/
def State.wordReported (s : State) : State :=
  match s.rwu.unit with
  | some u =>
    if u.unreported ≤ 1 then (s.completeUnit u.kind).finishCommands
    else { s with rwu := { s.rwu with unit := some { u with unreported := u.unreported - 1 } } }
  | none => s

end Sys2Proof.Machine
end

