-- ==== Sys2Proof/Machine/Path.lean ====
section
/-! DEFINITION. The Pass-Through Unit: accesses at the U-port, the frame decoder, the observation FIFO, stall and loss, the
S-port (section 10). -/
namespace Sys2Proof.Machine

/-! ### Acceptance -/

/-- The controller's access is accepted and waits for the S-port or for the end of a stall (R183). -/
def State.hold (s : State) (a : Access) : State := { s with ptu := { s.ptu with access := some a } }

/-- A scan-ring write is admitted to the FIFO's tail, or stalled when the FIFO is full (R186, R189). -/
def State.enterFifo (s : State) (e : FifoEntry) : State :=
  if s.ptu.fifo.length < Config.fifoPlaces then { s with ptu := { s.ptu with fifo := s.ptu.fifo ++ [e] } }
  else { s with ptu := { s.ptu with stall := some ⟨e, s.now⟩ } }

/-- An argument word is merged into the shadow (R141). -/
def State.argumentWritten (s : State) (n : Fin 7) (data : Word) (be : Enables) : State :=
  { s with cmu := { s.cmu with shadow := s.cmu.shadow.set n (mergeBytes s.cmu.shadow[n] data be) } }

/-- A consumer index write: a full write replaces CI (R143). -/
def State.consumerWritten (s : State) (data : Word) (be : Enables) : State :=
  if fullWrite be then { s with cmu := { s.cmu with consumerIndex := data.setWidth 9 } } else s

/-- A write to the go word: a full write starts a command (R142). -/
def State.goWritten (s : State) (data : Word) (be : Enables) : State := if fullWrite be then s.goWordArrives data else s

/-- The copy of a write goes where the frame decoder sorts it (R184, R185, R186). -/
def State.observe (s : State) (o : FrameOffset) (data : Word) (be : Enables) : State :=
  match sortOffset o with
  | .nowhere => s
  | .argument n => s.argumentWritten n data be
  | .goWord => s.goWritten data be
  | .consumerIndex => s.consumerWritten data be
  | .staging i => (s.stagingWritten i data be).finishCommands
  | .scanRing => s.enterFifo ⟨o, data, be⟩

/-- A write is accepted: carried unchanged, and observed in the selected frame unless a reset input is asserted (R183, R184,
R196). -/
def State.takeWrite (s : State) (addr : WordAddr) (data : Word) (be : Enables) : State :=
  let t := s.hold ⟨addr, true, data, be⟩
  if !s.inReset && frameOf addr == s.ptu.frameSelect then t.observe (offsetOf addr) data be else t

/-- A write presented at the U-port. While an access is in progress the controller waits: the write is not accepted and has
no effect (R183, log entry 5). -/
def State.acceptWrite (s : State) (addr : WordAddr) (data : Word) (be : Enables) : State :=
  match s.ptu.access with
  | some _ => s
  | none => s.takeWrite addr data be

/-- A read presented at the U-port (R183). -/
def State.acceptRead (s : State) (addr : WordAddr) (be : Enables) : State :=
  match s.ptu.access with
  | some _ => s
  | none => s.hold ⟨addr, false, 0, be⟩

/-- A write presented at an offset of the selected frame. -/
def State.acceptFrameWrite (s : State) (o : FrameOffset) (data : Word) (be : Enables) : State :=
  s.acceptWrite (addressOf s.ptu.frameSelect o) data be

/-- A go word presented at mailbox word 7 (R142). -/
def State.acceptGoWord (s : State) (code : BitVec 8) (unread : BitVec 6) (laneField : BitVec 2) (seq : BitVec 16) : State :=
  s.acceptFrameWrite 7 (goWord code unread laneField seq) fullEnables

/-! ### The observation FIFO -/

/-- The head leaves; a stalled write takes the freed place and its stall ends (R187, R189). -/
def Ptu.leave (p : Ptu) (rest : List FifoEntry) : Ptu :=
  match p.stall with
  | some h => { p with fifo := rest ++ [h.entry], stall := none }
  | none => { p with fifo := rest }

/-- The head of the observation FIFO is handed to its lane's intake and judged (R187, R1). DESIGN CHOICE: the entry may be judged
before its own write has reached the SRAM (R2 against R186 and R187, log entry 38). -/
def State.leaveFifo (s : State) : State :=
  match s.ptu.fifo with
  | e :: rest =>
    let t : State := { s with ptu := s.ptu.leave rest }
    (t.judgeEntry e).endIntake (ringLane e.offset) (t.lane (ringLane e.offset))
  | [] => s

/-- A lost observation: lost writes rises and an open line is marked LOSS (R190, R191, R15). -/
def Lane.loseWrite (x : Lane) : Lane := x.lossMark.count fun c => { c with lostWrites := c.lostWrites + 1 }

/-- The held write reaches the stall limit (R190). -/
def State.stallEnds (s : State) : State :=
  match s.ptu.stall with
  | some h =>
    if h.since + Config.stallClocks ≤ s.now then
      ({ s with ptu := { s.ptu with stall := none } } : State).modLane (ringLane h.entry.offset) Lane.loseWrite
    else s
  | none => s

/-! ### The S-port -/

/-- Whether a controller access waits for the S-port: accepted, and not held in a stall (R189, R193). -/
def Ptu.accessWaits (p : Ptu) : Bool := p.access.isSome && p.stall.isNone

/-- The head word goes to the S-port (R192). -/
def Ptu.startWord (p : Ptu) : Ptu :=
  match p.writerQueue with
  | w :: rest => { p with writerQueue := rest, sport := .part w.offset w.data }
  | [] => p

/-- Whether the head word has waited as long as the starvation guard bounds (R194). -/
def Ptu.headStarves (p : Ptu) (now : Nat) : Bool :=
  match p.writerQueue with
  | w :: _ => decide (w.entered + Config.starvationClocks ≤ now)
  | [] => false

/-- Whether the guard puts the head word before the access that waits: the word is old enough, and the guard has not placed
a word before this access already (R194, log entry 31). -/
def Ptu.guardActs (p : Ptu) (now : Nat) : Bool := !p.guarded && p.headStarves now

/-- The arbiter chooses when the S-port is free (R193, R194). -/
def Ptu.arbitrate (p : Ptu) (now : Nat) : Ptu :=
  match p.sport with
  | .controller => p
  | .part _ _ => p
  | .free =>
    if p.accessWaits then
      if p.guardActs now then { p.startWord with guarded := true } else { p with sport := .controller, guarded := false }
    else p.startWord

/-- A part write as the S-port carries it: a full write at the selected frame (R192). -/
def Ptu.partAccess (p : Ptu) (o : FrameOffset) (data : Word) : Access :=
  ⟨addressOf p.frameSelect o, true, data, fullEnables⟩

/-- The access the S-port carries; `none` while it is free (R193, R204). -/
def Ptu.carried (p : Ptu) : Option Access :=
  match p.sport with
  | .free => none
  | .controller => p.access
  | .part o data => some (p.partAccess o data)

/-- An access is carried out by the SRAM: a write puts its enabled bytes into its word, a read changes nothing (R183). -/
def Memory.carry (m : Memory) (a : Access) : Memory := if a.write then m.writeWord a.addr a.data a.be else m

/-- A controller access is carried out by the SRAM and the U-port is released (R183). -/
def State.carryAccess (s : State) (a : Access) : State :=
  { s with
    sram := s.sram.carry a
    ptu := { s.ptu with access := none, readData := if a.write then s.ptu.readData else s.sram.readWord a.addr } }

/-- The SRAM completes the controller access on the S-port (R183, R193). -/
def State.accessCompletes (s : State) : State :=
  match s.ptu.sport, s.ptu.access with
  | .controller, some a => ({ s with ptu := { s.ptu with sport := .free } } : State).carryAccess a
  | _, _ => s

/-- A part write is carried out by the SRAM (R192). -/
def State.carryPart (s : State) (o : FrameOffset) (data : Word) : State :=
  { s with sram := s.sram.carry (s.ptu.partAccess o data) }

/-- The SRAM completes the part write on the S-port, and the PTU reports it (R192). -/
def State.partCompletes (s : State) : State :=
  match s.ptu.sport with
  | .part o data =>
    (({ s with ptu := { s.ptu with sport := .free } } : State).carryPart o data).wordReported
  | .free => s
  | .controller => s

end Sys2Proof.Machine
end

