-- ==== Sys2Proof/Machine/CommandSteps.lean ====
section
/-! DEFINITION. The meanings of the go words, one for each command code (R142, R146). The arguments of a command are those of
the mailbox shadow. -/
namespace Sys2Proof.Machine

/-- LANE_START, code H'01 (R148). -/
def execLaneStart (after : Nat) (unread : BitVec 6) (laneField : BitVec 2) (seq : BitVec 16) (s : State) :
    Host.Outcome State Fault Refusal :=
  .next ((s.begin after).acceptGoWord 0x01 unread laneField seq)

/-- LANE_HOLD, code H'02 (R149). -/
def execLaneHold (after : Nat) (unread : BitVec 6) (laneField : BitVec 2) (seq : BitVec 16) (s : State) :
    Host.Outcome State Fault Refusal :=
  .next ((s.begin after).acceptGoWord 0x02 unread laneField seq)

/-- LANE_RESUME, code H'03 (R150). -/
def execLaneResume (after : Nat) (unread : BitVec 6) (laneField : BitVec 2) (seq : BitVec 16) (s : State) :
    Host.Outcome State Fault Refusal :=
  .next ((s.begin after).acceptGoWord 0x03 unread laneField seq)

/-- LANE_STOP, code H'04 (R151). -/
def execLaneStop (after : Nat) (unread : BitVec 6) (laneField : BitVec 2) (seq : BitVec 16) (s : State) :
    Host.Outcome State Fault Refusal :=
  .next ((s.begin after).acceptGoWord 0x04 unread laneField seq)

/-- TABLE_COMMIT, code H'10 (R152). -/
def execTableCommit (after : Nat) (unread : BitVec 6) (laneField : BitVec 2) (seq : BitVec 16) (s : State) :
    Host.Outcome State Fault Refusal :=
  .next ((s.begin after).acceptGoWord 0x10 unread laneField seq)

/-- VALVE_TEST, code H'20 (R153, R102). -/
def execValveTest (after : Nat) (unread : BitVec 6) (laneField : BitVec 2) (seq : BitVec 16) (s : State) :
    Host.Outcome State Fault Refusal :=
  .next ((s.begin after).acceptGoWord 0x20 unread laneField seq)

/-- STATS_SNAPSHOT, code H'30 (R154, R178). -/
def execStatsSnapshot (after : Nat) (unread : BitVec 6) (laneField : BitVec 2) (seq : BitVec 16) (s : State) :
    Host.Outcome State Fault Refusal :=
  .next ((s.begin after).acceptGoWord 0x30 unread laneField seq)

/-- CAPTURE_STATE, code H'31 (R160). -/
def execCaptureState (after : Nat) (unread : BitVec 6) (laneField : BitVec 2) (seq : BitVec 16) (s : State) :
    Host.Outcome State Fault Refusal :=
  .next ((s.begin after).acceptGoWord 0x31 unread laneField seq)

/-- BAD_COMMAND: a go word with a code that is no command's (R146). -/
def execBadCommand (after : Nat) (code : BitVec 8) (unread : BitVec 6) (laneField : BitVec 2) (seq : BitVec 16)
    (s : State) : Host.Outcome State Fault Refusal :=
  .next ((s.begin after).acceptGoWord code unread laneField seq)

end Sys2Proof.Machine
end

