-- ==== Sys2Proof/Machine/IntakeSteps.lean ====
section
/-! DEFINITION. The meanings of ENTRY_LEAVES_FIFO and STALL_LIMIT (R187, R190). -/
namespace Sys2Proof.Machine

/-- ENTRY_LEAVES_FIFO (R187). -/
def execEntryLeavesFifo (after : Nat) (s : State) : Host.Outcome State Fault Refusal := .next (s.begin after).leaveFifo

/-- STALL_LIMIT (R190). -/
def execStallLimit (after : Nat) (s : State) : Host.Outcome State Fault Refusal := .next (s.begin after).stallEnds

end Sys2Proof.Machine
end

