-- ==== Sys2Proof/Machine/ModeSteps.lean ====
section
/-! DEFINITION. The meanings of SCAN_END and of the rows that an event can owe: LANE_SWAP, DRAIN_CONDITION,
CAPTURE_SNAPSHOT (log entries 8 and 9). -/
namespace Sys2Proof.Machine

/-- The scan's end, and the pending command after a commit answered at once (R132, R133, R145). -/
def State.scanEnds (s : State) : State := s.endScan.finishCommands

/-- A lane in RUN or DRAIN that waits for its swap point, with the entry that brings it there at the head of the observation
FIFO: the intake event is taken whole. The swap falls inside it, after the damage of R7 and R10 and after the merge of R32,
and before the line is opened or the void line handed (R6, R12, R134). Elsewhere such a lane goes on waiting. -/
def State.swapAtEntry (s : State) (l : LaneId) : State := if s.swapWaiting l && s.atSwapPoint l then s.leaveFifo else s

/-- A waiting lane that has left RUN and DRAIN swaps as a step of its own (R134, R135, R137, R145). -/
def State.swapOutside (s : State) (l : LaneId) : State := (s.swapLane l).finishCommands

/-- SCAN_END (R132). -/
def execScanEnd (after : Nat) (s : State) : Host.Outcome State Fault Refusal := .next (s.begin after).scanEnds

/-- LANE_SWAP (R134, R6, R12, log entry 9). A capture and a drain condition the last event owes are taken first, and before an
intake event everything it owes. -/
def execLaneSwap (after : Nat) (lane : LaneId) (s : State) : Host.Outcome State Fault Refusal :=
  let t := (s.settleCapture.settleDrain .lane0).settleDrain .lane1
  if (t.lane lane).mode.sorting then .next ((t.begin after).swapAtEntry lane) else .next ((t.pass after).swapOutside lane)

/-- DRAIN_CONDITION (R156). A capture the last event owes is taken first. DESIGN CHOICE: its snapshot has the age of the step
before this one (log entry 34). -/
def execDrainCondition (after : Nat) (lane : LaneId) (s : State) : Host.Outcome State Fault Refusal :=
  .next ((s.settleCapture.settleDrain lane).pass after)

/-- CAPTURE_SNAPSHOT (R160, R161). DESIGN CHOICE: sent as a row of its own it makes the dump older than a snapshot that
DRAIN_CONDITION then takes (log entry 34). -/
def execCaptureSnapshot (after : Nat) (s : State) : Host.Outcome State Fault Refusal := .next (s.settleCapture.pass after)

end Sys2Proof.Machine
end

