-- ==== Sys2Proof/Machine/PortSteps.lean ====
section
/-! DEFINITION. The meanings of the U-port rows: reads, and writes by the place they fall on (R183 to R186). -/
namespace Sys2Proof.Machine

/-- U_PORT_READ (R183). -/
def execUPortRead (after : Nat) (addr : WordAddr) (be : Enables) (s : State) : Host.Outcome State Fault Refusal :=
  .next ((s.begin after).acceptRead addr be)

/-- U_PORT_WRITE (R183). The frame decoder sorts the write by its address, so one that falls on a watched word is observed
like the rows below (R184, log entry 21). -/
def execUPortWrite (after : Nat) (addr : WordAddr) (data : Word) (be : Enables) (s : State) :
    Host.Outcome State Fault Refusal :=
  .next ((s.begin after).acceptWrite addr data be)

/-- ARGUMENT_WORD_WRITE (R141). -/
def execArgumentWordWrite (after : Nat) (n : Fin 7) (data : Word) (be : Enables) (s : State) :
    Host.Outcome State Fault Refusal :=
  .next ((s.begin after).acceptFrameWrite (BitVec.ofNat 18 n.val) data be)

/-- CONSUMER_INDEX_WRITE (R143). -/
def execConsumerIndexWrite (after : Nat) (data : Word) (s : State) : Host.Outcome State Fault Refusal :=
  .next ((s.begin after).acceptFrameWrite 8 data fullEnables)

/-- STAGING_WRITE (R126). -/
def execStagingWrite (after : Nat) (offset : BitVec 10) (data : Word) (be : Enables) (s : State) :
    Host.Outcome State Fault Refusal :=
  .next ((s.begin after).acceptFrameWrite (BitVec.ofNat 18 (0x400 + offset.toNat)) data be)

/-- SCAN_RING_WRITE (R186, R189). -/
def execScanRingWrite (after : Nat) (lane : LaneId) (slot : BitVec 4) (slotWord : BitVec 12) (data : Word) (be : Enables)
    (s : State) : Host.Outcome State Fault Refusal :=
  .next ((s.begin after).acceptFrameWrite (scanRingOffset lane slot slotWord) data be)

end Sys2Proof.Machine
end

