-- ==== Sys2Proof/Machine/Resets.lean ====
section
/-! DEFINITION. The two resets: the values every block takes at the assertion, what the memory path goes on doing, and what
the release brings about (R21, R38, R60, R78, R106, R125, R139, R140, R163, R181, R182, R196 to R198). -/
namespace Sys2Proof.Machine

/-! ### Assertion -/

/-- A lane at POR: every value is the one R21, R60, R106, R125, R139 and R163 give; the supply-good input keeps its level. -/
def Lane.afterPor (x : Lane) : Lane := { supplyGood := x.supplyGood }

/-- A lane at CRSTn (R21, R60, R106, R125, R140, R163): the active table, LN, k, Pq and the episode count are kept, and the
valves finish their recovery. -/
def Lane.afterWarm (x : Lane) (now : Nat) : Lane :=
  let y := x.warmResetEjector now
  { y with
    mode := .off, drainCount := 0, drainDue := false, assembly := none, expected := 0, objects := []
    clock := y.clock.toIdle, counters := {} }

/-- The memory path at the assertion: the FIFO and the writer queue are emptied, a stalled write is carried at once without
being observed; the access in progress and the S-port go on (R196). -/
def Ptu.atReset (p : Ptu) : Ptu :=
  { p with
    fifo := [], stall := none, writerQueue := [], guarded := false
    sport := if p.stall.isSome && decide (p.sport = .free) then .controller else p.sport }

/-- The RTU at CRSTn: the staged bank is kept, a commit is abandoned (R140). -/
def Rtu.afterWarm (r : Rtu) : Rtu := { r with commit := .idle }

/-- PORn is asserted (R196). -/
def State.assertPor (s : State) : State :=
  { s with
    porAsserted := true, lane0 := s.lane0.afterPor, lane1 := s.lane1.afterPor, ptu := s.ptu.atReset, rtu := {}, cmu := {}
    rwu := {} }

/-- CRSTn is asserted (R196). -/
def State.assertWarm (s : State) : State :=
  { s with
    crstAsserted := true, lane0 := s.lane0.afterWarm s.now, lane1 := s.lane1.afterWarm s.now, ptu := s.ptu.atReset
    rtu := s.rtu.afterWarm, cmu := {}, rwu := {} }

/-! ### Release -/

/-- A part write still on the S-port is completed (R196). -/
def State.flushPart (s : State) : State :=
  match s.ptu.sport with
  | .part o data => s.carryPart o data
  | .free => s
  | .controller => s

/-- A controller access still in progress is completed (R196). -/
def State.flushAccess (s : State) : State :=
  match s.ptu.access with
  | some a => s.carryAccess a
  | none => s

/-- The memory path at a release: no access in progress and the S-port free (R197, R198); what was on its way is completed
first (log entry 20). -/
def State.flushPath (s : State) : State :=
  let t := s.flushPart.flushAccess
  { t with ptu := { t.ptu with sport := .free, guarded := false } }

/-- The RWU acts at the release: RESET_DONE, the common block, and the RESET snapshots of lane 0 and lane 1 (R181, R182). -/
def State.announceReset (s : State) (warm : Bool) : State :=
  let t : State := { s with rwu := { s.rwu with resetWarm := warm } }
  (((t.record (.resetDone s.ptu.frameSelect warm)).commonWaits).takeSnapshot .lane0 .reset).takeSnapshot .lane1 .reset

/-- The part resumes when no reset input stays asserted (log entry 19). -/
def State.resume (s : State) (warm : Bool) : State := if s.inReset then s else s.announceReset warm

/-- PORn is released: the memory path comes to rest (R197) and the frame select is latched (R184, R181). DESIGN CHOICE: the path
comes to rest at each release, also while CRSTn stays asserted (log entry 19). Without PORn asserted there is no release to take. -/
def State.releasePor (s : State) (fsel : BitVec 2) : State :=
  if s.porAsserted then
    let t := s.flushPath
    ({ t with porAsserted := false, ptu := { t.ptu with frameSelect := fsel } } : State).resume false
  else s

/-- CRSTn is released: the memory path comes to rest (R198, R182). DESIGN CHOICE: so it does while PORn stays asserted, as at a
release of PORn (log entry 19). Without CRSTn asserted there is no release to take. -/
def State.releaseWarm (s : State) : State :=
  if s.crstAsserted then ({ s.flushPath with crstAsserted := false } : State).resume true else s

end Sys2Proof.Machine
end

