-- ==== Sys2Proof/Machine/ResetSteps.lean ====
section
/-! DEFINITION. The meanings of the reset rows: POR, POR_RELEASE, CRSTN, CRSTN_RELEASE. -/
namespace Sys2Proof.Machine

/-- POR (R196). -/
def execPor (after : Nat) (s : State) : Host.Outcome State Fault Refusal := .next (s.begin after).assertPor

/-- POR_RELEASE (R181, R184, R197). -/
def execPorRelease (after : Nat) (fsel : BitVec 2) (s : State) : Host.Outcome State Fault Refusal :=
  .next ((s.begin after).releasePor fsel)

/-- CRSTN (R182, R196). -/
def execCrstn (after : Nat) (s : State) : Host.Outcome State Fault Refusal := .next (s.begin after).assertWarm

/-- CRSTN_RELEASE (R182, R198). -/
def execCrstnRelease (after : Nat) (s : State) : Host.Outcome State Fault Refusal := .next (s.begin after).releaseWarm

end Sys2Proof.Machine
end

