-- ==== Sys2Proof/Machine/ValveSteps.lean ====
section
/-! DEFINITION. The meanings of the valve and supply rows: BOOST_TIMER, CARRIER_PERIOD, MAX_ON_GUARD, RECOVERY_END,
TEST_DURATION_END, SUPPLY_DROP, SUPPLY_RETURN. -/
namespace Sys2Proof.Machine

/-- An event of a lane's EJU: its effect and records, then the CMU's evaluation at a change of the quiet report (R101,
R156). -/
def State.ejectorEvent (s : State) (l : LaneId) (w : Lane × List Record) : State :=
  (s.apply l w).evaluateDrain l (s.lane l).quiet 0

/-- The supply-good input goes low (R95). In a reset the level is taken without an event (R106). -/
def State.supplyFalls (s : State) (l : LaneId) : State :=
  if !(s.lane l).supplyGood then s
  else if s.inReset then s.modLane l fun x => { x with supplyGood := false }
  else s.ejectorEvent l ((s.lane l).dropSupply l s.now)

/-- The supply-good input returns high (R97). In a reset the level is taken without an event (R106). -/
def State.supplyRises (s : State) (l : LaneId) : State :=
  if (s.lane l).supplyGood then s
  else if s.inReset then s.modLane l fun x => { x with supplyGood := true }
  else s.ejectorEvent l ((s.lane l).returnSupply l)

/-- BOOST_TIMER (R89). -/
def execBoostTimer (after : Nat) (lane : LaneId) (valve : Fin 64) (s : State) : Host.Outcome State Fault Refusal :=
  let t := s.begin after
  .next (t.ejectorEvent lane ((t.lane lane).boostExpires t.now valve, []))

/-- CARRIER_PERIOD (R90). -/
def execCarrierPeriod (after : Nat) (lane : LaneId) (valve : Fin 64) (s : State) : Host.Outcome State Fault Refusal :=
  let t := s.begin after
  .next (t.ejectorEvent lane ((t.lane lane).carrierTurns t.now valve, []))

/-- MAX_ON_GUARD (R92). -/
def execMaxOnGuard (after : Nat) (lane : LaneId) (valve : Fin 64) (s : State) : Host.Outcome State Fault Refusal :=
  let t := s.begin after
  .next (t.ejectorEvent lane ((t.lane lane).guardTrips lane t.now valve))

/-- RECOVERY_END (R93). -/
def execRecoveryEnd (after : Nat) (lane : LaneId) (valve : Fin 64) (s : State) : Host.Outcome State Fault Refusal :=
  let t := s.begin after
  .next (t.ejectorEvent lane ((t.lane lane).recoveryEnds t.now valve, []))

/-- TEST_DURATION_END (R103). -/
def execTestDurationEnd (after : Nat) (lane : LaneId) (valve : Fin 64) (s : State) : Host.Outcome State Fault Refusal :=
  let t := s.begin after
  .next (t.ejectorEvent lane ((t.lane lane).testEnds t.now valve, []))

/-- SUPPLY_DROP (R95). -/
def execSupplyDrop (after : Nat) (lane : LaneId) (s : State) : Host.Outcome State Fault Refusal :=
  .next ((s.begin after).supplyFalls lane)

/-- SUPPLY_RETURN (R97). -/
def execSupplyReturn (after : Nat) (lane : LaneId) (s : State) : Host.Outcome State Fault Refusal :=
  .next ((s.begin after).supplyRises lane)

end Sys2Proof.Machine
end

