-- ==== Sys2Proof/Machine/WriterSteps.lean ====
section
/-! DEFINITION. The meanings of the writer's and the S-port's rows: WRITER_UNIT_CHOICE, WRITER_WORD_HANDED,
SPORT_ARBITRATION, CONTROLLER_ACCESS_DONE, PART_WRITE_DONE. -/
namespace Sys2Proof.Machine

/-- WRITER_UNIT_CHOICE (R169). DESIGN CHOICE: an idle writer stays as it is until this row is sent, so other events can come
before its choice (log entry 33). -/
def execWriterUnitChoice (after : Nat) (s : State) : Host.Outcome State Fault Refusal := .next (s.begin after).chooseUnit

/-- WRITER_WORD_HANDED (R192). DESIGN CHOICE: the unit's next word stays with the writer until this row is sent (log entry
33). -/
def execWriterWordHanded (after : Nat) (s : State) : Host.Outcome State Fault Refusal := .next (s.begin after).handWord

/-- SPORT_ARBITRATION (R193). -/
def execSportArbitration (after : Nat) (s : State) : Host.Outcome State Fault Refusal :=
  let t := s.begin after
  .next { t with ptu := t.ptu.arbitrate t.now }

/-- CONTROLLER_ACCESS_DONE (R183). -/
def execControllerAccessDone (after : Nat) (s : State) : Host.Outcome State Fault Refusal :=
  .next (s.begin after).accessCompletes

/-- PART_WRITE_DONE (R192). -/
def execPartWriteDone (after : Nat) (s : State) : Host.Outcome State Fault Refusal := .next (s.begin after).partCompletes

end Sys2Proof.Machine
end

