-- ==== Sys2Proof/Machine/Dispatch.lean ====
section
/-! DEFINITION. The dispatch: one direct call of a meaning for each constructor of Instr. -/
namespace Sys2Proof.Machine

/-- What a command does to everything but the queue of waiting commands. -/
def exec (i : Instr) (s : State) : Host.Outcome State Fault Refusal :=
  match i with
  | .por after => Sys2Proof.Machine.execPor after s
  | .porRelease after fsel => Sys2Proof.Machine.execPorRelease after fsel s
  | .crstn after => Sys2Proof.Machine.execCrstn after s
  | .crstnRelease after => Sys2Proof.Machine.execCrstnRelease after s
  | .uPortRead after addr be => Sys2Proof.Machine.execUPortRead after addr be s
  | .uPortWrite after addr data be => Sys2Proof.Machine.execUPortWrite after addr data be s
  | .argumentWordWrite after n data be => Sys2Proof.Machine.execArgumentWordWrite after n data be s
  | .consumerIndexWrite after data => Sys2Proof.Machine.execConsumerIndexWrite after data s
  | .stagingWrite after offset data be => Sys2Proof.Machine.execStagingWrite after offset data be s
  | .scanRingWrite after lane slot slotWord data be => Sys2Proof.Machine.execScanRingWrite after lane slot slotWord data be s
  | .laneStart after unread laneField seq => Sys2Proof.Machine.execLaneStart after unread laneField seq s
  | .laneHold after unread laneField seq => Sys2Proof.Machine.execLaneHold after unread laneField seq s
  | .laneResume after unread laneField seq => Sys2Proof.Machine.execLaneResume after unread laneField seq s
  | .laneStop after unread laneField seq => Sys2Proof.Machine.execLaneStop after unread laneField seq s
  | .tableCommit after unread laneField seq => Sys2Proof.Machine.execTableCommit after unread laneField seq s
  | .valveTest after unread laneField seq => Sys2Proof.Machine.execValveTest after unread laneField seq s
  | .statsSnapshot after unread laneField seq => Sys2Proof.Machine.execStatsSnapshot after unread laneField seq s
  | .captureState after unread laneField seq => Sys2Proof.Machine.execCaptureState after unread laneField seq s
  | .badCommand after code unread laneField seq => Sys2Proof.Machine.execBadCommand after code unread laneField seq s
  | .entryLeavesFifo after => Sys2Proof.Machine.execEntryLeavesFifo after s
  | .stallLimit after => Sys2Proof.Machine.execStallLimit after s
  | .triggerEdge after lane => Sys2Proof.Machine.execTriggerEdge after lane s
  | .tick after lane => Sys2Proof.Machine.execTick after lane s
  | .coastDeadline after lane => Sys2Proof.Machine.execCoastDeadline after lane s
  | .syntheticLineStart after lane => Sys2Proof.Machine.execSyntheticLineStart after lane s
  | .boostTimer after lane valve => Sys2Proof.Machine.execBoostTimer after lane valve s
  | .carrierPeriod after lane valve => Sys2Proof.Machine.execCarrierPeriod after lane valve s
  | .maxOnGuard after lane valve => Sys2Proof.Machine.execMaxOnGuard after lane valve s
  | .recoveryEnd after lane valve => Sys2Proof.Machine.execRecoveryEnd after lane valve s
  | .testDurationEnd after lane valve => Sys2Proof.Machine.execTestDurationEnd after lane valve s
  | .supplyDrop after lane => Sys2Proof.Machine.execSupplyDrop after lane s
  | .supplyReturn after lane => Sys2Proof.Machine.execSupplyReturn after lane s
  | .scanEnd after => Sys2Proof.Machine.execScanEnd after s
  | .laneSwap after lane => Sys2Proof.Machine.execLaneSwap after lane s
  | .drainCondition after lane => Sys2Proof.Machine.execDrainCondition after lane s
  | .captureSnapshot after => Sys2Proof.Machine.execCaptureSnapshot after s
  | .writerUnitChoice after => Sys2Proof.Machine.execWriterUnitChoice after s
  | .writerWordHanded after => Sys2Proof.Machine.execWriterWordHanded after s
  | .sportArbitration after => Sys2Proof.Machine.execSportArbitration after s
  | .controllerAccessDone after => Sys2Proof.Machine.execControllerAccessDone after s
  | .partWriteDone after => Sys2Proof.Machine.execPartWriteDone after s

end Sys2Proof.Machine
end

