-- ==== Sys2Proof/Machine/Step.lean ====
section
/-! DEFINITION. One step: the command at the front of the queue, or one reference clock of idling. -/
namespace Sys2Proof.Machine

/-- Takes the front command and executes it with the rest of the queue; with an empty queue one reference clock passes and
nothing else happens (log entry 1). -/
def step (s : State) : Host.Outcome State Fault Refusal :=
  match s.pending with
  | c :: rest => exec c { s with pending := rest }
  | [] => .next { s with now := s.now + 1 }

/-- `s` with the command a table word spells put at the front of its queue; no row gives bits, so no word spells one and the
state stays as it is. -/
def State.withFetchWord (s : State) (nbits w : Nat) : State :=
  match decodeTableWord nbits w with
  | some c => { s with pending := c :: s.pending }
  | none => s

end Sys2Proof.Machine
end

