-- ==== Sys2Proof/Machine/Pins.lean ====
section
/-! DEFINITION. The outputs of the part as functions of its state (section 11.8, R204, log entry 30). -/
namespace Sys2Proof.Machine

/-- Bit v of a lane's valve outputs: driven in BOOST and in the driven part of SUSTAIN's carrier (R98, R204). -/
def State.valveOutput (s : State) (l : LaneId) (v : Fin 64) : Bool := ((s.lane l).valve v).driven

/-- UWAIT: the U-port holds the controller while an access is accepted and not yet released (R183, R204). -/
def State.uwait (s : State) : Bool := s.ptu.access.isSome

/-- SSEL: the S-port carries an access (R193, R204). -/
def State.ssel (s : State) : Bool := decide (s.ptu.sport ≠ .free)

/-- SA: the word address of the access the S-port carries (R204). While SSEL is low no access drives it. -/
def State.sportAddress (s : State) : Option WordAddr := s.ptu.carried.map Access.addr

/-- SWR: high for a write on the S-port (R204). -/
def State.sportWrite (s : State) : Option Bool := s.ptu.carried.map Access.write

/-- SBE: the byte enables of the access the S-port carries (R204). -/
def State.sportEnables (s : State) : Option Enables := s.ptu.carried.map Access.be

/-- SD as the part drives it: the data word of a write; on a read the SRAM drives it (R183, R204). -/
def State.sportData (s : State) : Option Word :=
  s.ptu.carried.bind fun a => if a.write then some a.data else none

/-- UD on a read: the word last returned to the controller (R183, R204). -/
def State.readData (s : State) : Word := s.ptu.readData

end Sys2Proof.Machine
end

