-- ==== Sys2Proof/Safety.lean ====
section
/-! DEFINITION. What counts as a sound state of the part, and the terms in which claims about its commands are made. -/
namespace Sys2Proof

/-- The other lane. -/
def LaneId.other : LaneId → LaneId
  | .lane0 => .lane1
  | .lane1 => .lane0

/-- The reference clocks a command lets pass before it acts. -/
def Instr.after : Instr → Nat
  | .por n => n
  | .porRelease n _ => n
  | .crstn n => n
  | .crstnRelease n => n
  | .uPortRead n _ _ => n
  | .uPortWrite n _ _ _ => n
  | .argumentWordWrite n _ _ _ => n
  | .consumerIndexWrite n _ => n
  | .stagingWrite n _ _ _ => n
  | .scanRingWrite n _ _ _ _ _ => n
  | .laneStart n _ _ _ => n
  | .laneHold n _ _ _ => n
  | .laneResume n _ _ _ => n
  | .laneStop n _ _ _ => n
  | .tableCommit n _ _ _ => n
  | .valveTest n _ _ _ => n
  | .statsSnapshot n _ _ _ => n
  | .captureState n _ _ _ => n
  | .badCommand n _ _ _ _ => n
  | .entryLeavesFifo n => n
  | .stallLimit n => n
  | .triggerEdge n _ => n
  | .tick n _ => n
  | .coastDeadline n _ => n
  | .syntheticLineStart n _ => n
  | .boostTimer n _ _ => n
  | .carrierPeriod n _ _ => n
  | .maxOnGuard n _ _ => n
  | .recoveryEnd n _ _ => n
  | .testDurationEnd n _ _ => n
  | .supplyDrop n _ => n
  | .supplyReturn n _ => n
  | .scanEnd n => n
  | .laneSwap n _ => n
  | .drainCondition n _ => n
  | .captureSnapshot n => n
  | .writerUnitChoice n => n
  | .writerWordHanded n => n
  | .sportArbitration n => n
  | .controllerAccessDone n => n
  | .partWriteDone n => n

/-- Whether a command can change the SRAM: the completion of an access, or the release of a reset that completes one. -/
def Instr.reachesSram : Instr → Bool
  | .por _ => false
  | .porRelease _ _ => true
  | .crstn _ => false
  | .crstnRelease _ => true
  | .uPortRead _ _ _ => false
  | .uPortWrite _ _ _ _ => false
  | .argumentWordWrite _ _ _ _ => false
  | .consumerIndexWrite _ _ => false
  | .stagingWrite _ _ _ _ => false
  | .scanRingWrite _ _ _ _ _ _ => false
  | .laneStart _ _ _ _ => false
  | .laneHold _ _ _ _ => false
  | .laneResume _ _ _ _ => false
  | .laneStop _ _ _ _ => false
  | .tableCommit _ _ _ _ => false
  | .valveTest _ _ _ _ => false
  | .statsSnapshot _ _ _ _ => false
  | .captureState _ _ _ _ => false
  | .badCommand _ _ _ _ _ => false
  | .entryLeavesFifo _ => false
  | .stallLimit _ => false
  | .triggerEdge _ _ => false
  | .tick _ _ => false
  | .coastDeadline _ _ => false
  | .syntheticLineStart _ _ => false
  | .boostTimer _ _ _ => false
  | .carrierPeriod _ _ _ => false
  | .maxOnGuard _ _ _ => false
  | .recoveryEnd _ _ _ => false
  | .testDurationEnd _ _ _ => false
  | .supplyDrop _ _ => false
  | .supplyReturn _ _ => false
  | .scanEnd _ => false
  | .laneSwap _ _ => false
  | .drainCondition _ _ => false
  | .captureSnapshot _ => false
  | .writerUnitChoice _ => false
  | .writerWordHanded _ => false
  | .sportArbitration _ => false
  | .controllerAccessDone _ => true
  | .partWriteDone _ => true

end Sys2Proof

namespace Sys2Proof.Machine

/-! ### When a command finds the part ready -/

/-- Nothing is owed from the event before, so a command begins by letting its time pass and nothing else (log entry 8). -/
abbrev State.Settled (s : State) : Prop := s.owes = false

/-- Settled, no reset input asserted, and the U-port free. -/
structure State.PortReady (s : State) : Prop where
  settled : s.Settled
  running : s.inReset = false
  free : s.ptu.access = none

/-- Ready for a go word that is executed at once: also no command executes and the event queue has room for `n` records. -/
structure State.CommandReady (s : State) (n : Nat) : Prop extends s.PortReady where
  idle : s.cmu.executing = none
  room : s.rwu.queue.length + n ≤ Config.eventQueuePlaces

/-- The go word of a lane's command: its lane field names the lane. -/
def laneFieldOf : LaneId → BitVec 2
  | .lane0 => 0
  | .lane1 => 1

/-- The four byte addresses of an SRAM word. -/
def wordBytes (addr : WordAddr) (a : Nat) : Prop := addr.toNat * 4 ≤ a ∧ a < addr.toNat * 4 + 4

/-! ### Sound states -/

/-- The sizes of the memory path, and what holds together in it: a stall fills the FIFO and holds the access that waits; the
S-port carries a controller access only while one is in progress; the guard has placed a word only before an access that waits
(R186, R189, R192, R193, R194, R196). -/
structure State.PathSound (s : State) : Prop where
  fifo : s.ptu.fifo.length ≤ Config.fifoPlaces
  writer : s.ptu.writerQueue.length ≤ Config.writerQueuePlaces
  stall : s.ptu.stall.isSome → s.ptu.fifo.length = Config.fifoPlaces ∧ s.ptu.access.isSome ∧ s.ptu.sport ≠ .controller ∧
    s.inReset = false
  carried : s.ptu.sport = .controller → s.ptu.access.isSome
  guarded : s.ptu.guarded = true → s.ptu.access.isSome ∧ s.ptu.stall = none ∧ s.ptu.sport ≠ .controller

/-- The sizes of a lane's queue and counts (R80, R96, R156, R114). -/
structure Lane.Bounded (x : Lane) : Prop where
  firings : x.firings.length ≤ Config.firingPlaces
  drain : x.drainCount ≤ Config.drainCountMax
  episode : x.episodeMissed ≤ Config.episodeMissedMax
  tick : x.clock.k ≤ 15

/-- Every bounded store of the part is within its bound (R164, R186, R192, R80). -/
structure State.Bounded (s : State) : Prop where
  path : s.PathSound
  queue : s.rwu.queue.length ≤ Config.eventQueuePlaces
  drops : s.rwu.dropCount ≤ Config.dropCountMax
  lane0 : s.lane0.Bounded
  lane1 : s.lane1.Bounded

/-- The equality of R66: every object closed has one decision, modulo 2^32. -/
def Counters.Balanced (c : Counters) : Prop :=
  c.objectsClosed = c.accepted + c.fragments + c.rejectedStone + c.rejectedForeign + c.rejectedLong + c.rejectedDark +
    c.rejectedYellow + c.rejectedChalk

/-- The counters of both lanes, and those of every snapshot that waits, are balanced (R66, R173). -/
structure State.Balanced (s : State) : Prop where
  lane0 : s.lane0.counters.Balanced
  lane1 : s.lane1.counters.Balanced
  wait0 : ∀ p, s.rwu.report0.snapshot = some p → p.counters.Balanced
  wait1 : ∀ p, s.rwu.report1.snapshot = some p → p.counters.Balanced

/-- Every object of a table has a place of its own among the 48, and its six counts sum to its area; the objects stand in increasing
order of their disjoint spans, each within cmin..cmax within the 1,024 columns; LONG and CLUSTER are clear (R40, R41, R56). -/
structure Lane.TableSound (x : Lane) : Prop where
  places : (x.objects.map OpenObject.slotId).Nodup
  range : ∀ o ∈ x.objects, o.slotId < Config.objectPlaces
  area : ∀ o ∈ x.objects, o.counts.total = o.area
  spans : x.objects.Pairwise (fun a b => a.spanEnd < b.spanStart)
  hulls : ∀ o ∈ x.objects, o.cmin ≤ o.spanStart ∧ o.spanStart ≤ o.spanEnd ∧ o.spanEnd ≤ o.cmax ∧ o.cmax < 1024
  flags : ∀ o ∈ x.objects, o.long = false ∧ o.cluster = false

/-- Nothing is tracked, queued, pending or open from a firing. -/
structure Lane.Inert (x : Lane) : Prop where
  objects : x.objects = []
  assembly : x.assembly = none
  firings : x.firings = []
  valves : ∀ v, (x.valve v).pending = none ∧ (x.valve v).firingOpen = none

/-- No valve of the lane is in BOOST or SUSTAIN. -/
def Lane.AllShut (x : Lane) : Prop := ∀ v, (x.valve v).opening = none

/-- The clock states of a lane in RUN, DRAIN or HOLD (section 6.2). -/
def ClockState.runs (c : ClockState) : Prop := c = .waiting ∨ c = .locked ∨ c = .coasting

/-- What each lane mode promises (sections 1.7, 6.2, 8.4; R58, R80, R98, R101). -/
structure Lane.ModeSound (x : Lane) : Prop where
  off : x.mode = .off → x.Inert ∧ x.clock.state = .idle
  hold : x.mode = .hold → x.Inert ∧ x.clock.state.runs
  fault : x.mode = .fault → x.Inert ∧ x.AllShut ∧ x.clock.state = .idle
  sorting : x.mode.sorting = true → x.clock.state.runs
  due : x.mode = .drain → x.drainDue = true → x.objects = [] ∧ x.quiet = true

/-- With the supply-good input low no opening is in progress and no entry waits in a pending slot (R95, R98). -/
def Lane.SupplySound (x : Lane) : Prop := x.supplyGood = false → x.AllShut ∧ ∀ v, (x.valve v).pending = none

/-- Modes, clocks and valves of both lanes agree; while a reset input is asserted both lanes are OFF with every valve shut and
no command is pending (R98, R106, R163). -/
structure State.ModeSound (s : State) : Prop where
  modes : ∀ l, (s.lane l).ModeSound
  supply : ∀ l, (s.lane l).SupplySound
  reset : s.inReset = true → s.cmu.slot = none ∧ ∀ l, (s.lane l).mode = .off ∧ (s.lane l).AllShut

end Sys2Proof.Machine
end

