-- ==== Sys2Proof/Certificates/Slice0/Obligations.lean ====
section
/-! DEFINITION. The statements for the provers. A command's result is stated where the part is `Settled` (nothing is owed from
the event before), so that the command begins by letting its time pass and nothing else. What is the model's here, not the
spec's: time is counted in `now` (log entry 1), a timed event sent before its time has no effect and one sent late is taken
late (log entry 2), the SRAM's bytes stand in State (log entry 6), what an event owes is kept in `captureDue` and `drainDue`
(log entry 8), a block's age is the number of its step (log entry 17), the other reset input keeps its level at a release (log
entry 19), what is on its way in the memory path is completed by the release (log entry 20), the starvation guard places at
most one word before an access (log entry 31), a clock that leaves its lines keeps its line start time (log entry 32), a capture's
snapshot shows the state before the event's own changes, and its buffer is free again when the dump is chosen (log entries 11, 34
and 37), the objects that a line open across a swap of expiry forms are
marked MIXED (log entry 35), an entry may be judged before its own
write has reached the SRAM (log entry 38). -/

open Sys2Proof Sys2Proof.Machine

/-! ### The queue, time, frames -/

/-- A step executes the command at the front of the queue with the queue's rest; with an empty queue one reference clock
passes (the model's choice, log entry 1). -/
def Obligations.StepRunsTheQueue : Prop :=
  (∀ (s : State) (c : Instr) (rest : List Instr), s.pending = c :: rest → step s = exec c { s with pending := rest }) ∧
  ∀ s : State, s.pending = [] → step s = .next { s with now := s.now + 1 }

/-- Every command answers a next state, leaves the queue as it is and lets exactly its time pass (the model's count of time,
log entry 1). -/
def Obligations.CommandsCompleteAndCountTime : Prop :=
  ∀ (c : Instr) (s : State), ∃ t, exec c s = .next t ∧ t.pending = s.pending ∧ t.now = s.now + c.after ∧
    t.events = s.events + 1

/-- Only the completion of an access, or the release of a reset that completes one, changes a byte of the SRAM. A controller
access reaches the enabled bytes of its own word, a part write the four bytes of its own word in the selected frame, and every
other byte stays (the SRAM in State: log entry 6). -/
def Obligations.SramChangesOnlyAtCompletion : Prop :=
  (∀ (c : Instr) (s t : State), exec c s = .next t → c.reachesSram = false → t.sram = s.sram) ∧
  (∀ (s t : State) (after : Nat) (a : Access), s.ptu.access = some a → exec (.controllerAccessDone after) s = .next t →
    ∀ b, (∀ n : Fin 4, a.write = true → a.be[n] = true → b ≠ a.addr.toNat * 4 + n.val) →
      t.sram.readByte b = s.sram.readByte b) ∧
  (∀ (s t : State) (after : Nat) (o : FrameOffset) (data : Word), s.ptu.sport = .part o data →
    exec (.partWriteDone after) s = .next t →
    ∀ b, ¬ wordBytes (addressOf s.ptu.frameSelect o) b → t.sram.readByte b = s.sram.readByte b)

/-- A timed event or a pin event of one lane leaves the other lane as it is, with no command waiting behind the one that
executes. -/
def Obligations.LaneEventsLeaveOtherLane : Prop :=
  ∀ (s t : State) (l : LaneId) (n : Nat) (v : Fin 64), s.Settled → s.cmu.slot = none →
    ∀ c ∈ [Instr.triggerEdge n l, .tick n l, .coastDeadline n l, .syntheticLineStart n l, .boostTimer n l v,
        .carrierPeriod n l v, .maxOnGuard n l v, .recoveryEnd n l v, .testDurationEnd n l v, .supplyDrop n l,
        .supplyReturn n l],
      exec c s = .next t →
        t.lane l.other = s.lane l.other ∧ t.ptu = s.ptu ∧ t.sram = s.sram ∧ t.rtu.staged = s.rtu.staged ∧
          t.cmu.shadow = s.cmu.shadow ∧ t.cmu.consumerIndex = s.cmu.consumerIndex

/-- The word address of an offset of the selected frame. -/
def frameAddress (s : State) (o : Nat) : WordAddr := BitVec.ofNat 20 (262144 * s.ptu.frameSelect.toNat + o)

/-! ### Ticks, as the statements describe them -/

/-- The recovery end tick that a cause other than the close tick sets (R91). -/
def restEndsAfterNow (x : Lane) : Option TickTime :=
  if x.mode = .off ∨ x.mode = .fault then none
  else some (tickTime x.clock.ln x.clock.k + BitVec.ofNat 36 (1 + x.recTicks))

/-- What an event of the EJU that takes a lane from `x` to `y` leaves of the drain condition found: it is evaluated at a change of
the quiet report in DRAIN (kept in `drainDue`, log entry 8). -/
def drainFound (x y : Lane) : Bool := if x.mode = .drain ∧ y.quiet ≠ x.quiet then y.drained else x.drainDue

/-- What an event that takes a lane from `x` to `y` and may hand lines leaves of the drain condition found: it is evaluated in DRAIN
when the event has handed lines or changed the quiet report (R156; log entry 8). -/
def drainFoundAfterLines (x y : Lane) : Bool :=
  if x.mode = .drain ∧ (y.counters.linesProcessed ≠ x.counters.linesProcessed ∨ y.quiet ≠ x.quiet) then y.drained
  else x.drainDue

/-- A valve after a tick has ended the opening and missed the pending entry that close at it. -/
def closedAtTick (x : Lane) (now : Nat) (t : TickTime) (y : Valve) : Valve :=
  { phase :=
      if y.firingOpen.map Firing.closeTick = some t then
        .recover now x.block.recoveryUs
          (if x.mode = .off ∨ x.mode = .fault then none else some (t + BitVec.ofNat 36 x.recTicks))
      else y.phase
    pending := if y.pending.map Firing.closeTick = some t then none else y.pending }

/-- The window of the current opening after an entry has joined it at its due tick: the later close, cut to max_on_ticks, never
lowered. -/
def joinedAtDue (most : Nat) (w f : Firing) : Firing :=
  let raw := tickMax w.closeTick f.closeTick
  let limit := w.openTick + BitVec.ofNat 36 most
  let close := if (limit - raw).toInt < 0 then tickMax w.closeTick limit else raw
  { w with closeTick := close, joined := min (w.joined + 1) 255, clamped := w.clamped || close != raw }

/-- A valve after its entry has come due with the supply good: it opens, its current opening from a firing is joined, or the
entry waits in the pending slot if that is empty. -/
def valveAfterDue (x : Lane) (now : Nat) (f : Firing) (y : Valve) : Valve :=
  match y.phase with
  | .closed =>
    { phase := .boost
        { source := .firing f, began := now, boostUs := x.block.boostUs, maxOnUs := x.block.maxOnUs
          sustainDuty := x.block.sustainDuty, carrierUs := x.block.carrierUs }
      pending := y.pending }
  | .boost ⟨.firing w, b, u, m, d, c⟩ => { y with phase := .boost ⟨.firing (joinedAtDue x.maxOnTicks w f), b, u, m, d, c⟩ }
  | .sustain ⟨.firing w, b, u, m, d, c⟩ p v =>
    { y with phase := .sustain ⟨.firing (joinedAtDue x.maxOnTicks w f), b, u, m, d, c⟩ p v }
  | _ => { y with pending := some (y.pending.getD f) }

/-- Whether an entry that comes due at a valve is missed VALVE_BUSY: the valve rests or is tested, and its slot is occupied. -/
def busyAtDue (y : Valve) : Bool := decide (y.phase ≠ .closed) && y.firingOpen.isNone && y.pending.isSome

/-- An entry that comes due in a lane and has left its queue: with the supply good its valve takes it or it is missed VALVE_BUSY;
with the supply low it is missed SUPPLY. -/
def dueTaken (now : Nat) (x : Lane) (f : Firing) : Lane :=
  let y := x.valve f.valve
  if x.supplyGood = true then
    { x with
      valves := x.valves.set f.valve (valveAfterDue x now f y)
      counters :=
        { x.counters with
          firingsOpened := x.counters.firingsOpened + if y.phase = .closed then 1 else 0
          missedValveBusy := x.counters.missedValveBusy + if busyAtDue y then 1 else 0 } }
  else
    { x with
      counters := { x.counters with missedSupply := x.counters.missedSupply + 1 }
      episodeMissed := min (x.episodeMissed + 1) 65535 }

/-- A lane after tick k of its current line: what closes at the tick ends, then the entries whose open tick it is come due, in queue
order (R86, R87); then the drain condition is evaluated if the quiet report has changed (R156). -/
def tickOf (now : Nat) (x : Lane) (k : Nat) : Lane :=
  let t : TickTime := BitVec.ofNat 36 (x.clock.ln.toNat * 16 + k)
  let missed := x.countValves fun y => y.pending.map Firing.closeTick == some t
  let ended : Lane :=
    { x with
      clock := { x.clock with k := k }, firings := x.firings.filter fun f => f.openTick != t
      valves := x.valves.map (closedAtTick x now t)
      counters := { x.counters with missedValveBusy := x.counters.missedValveBusy + BitVec.ofNat 32 missed } }
  let taken := (x.firings.filter fun f => f.openTick == t).foldl (dueTaken now) ended
  { taken with drainDue := drainFound x taken }

/-- Ticks of the current line taken one after another. -/
def ticksOf (now : Nat) (ks : List Nat) (x : Lane) : Lane := ks.foldl (tickOf now) x

/-- The ticks of the current line that are not yet taken, up to one of them. -/
def ticksLeft (c : Clock) (last : Nat) : List Nat := (List.range 16).filter fun k => decide (c.k < k ∧ k ≤ last)

/-- Tick 0 of a line stamped at a time, and the ticks whose time from the stamp has been reached (R117). -/
def ticksReached (stamp pq now : Nat) : List Nat :=
  0 :: (List.range 16).filter fun k => decide (0 < k ∧ stamp + k * pq / 256 ≤ now)

/-! ### Snapshots, as the statements describe them -/

/-- The snapshot of a lane as a step leaves it: it takes the place of one that waits and keeps its age, else its age is this step's
(R173; the age is the step's number, log entry 17). -/
def snapshotOf (s t : State) (l : LaneId) (cause : SnapshotCause) : Snapshot :=
  { counters := (t.lane l).counters, mode := (t.lane l).mode, clockState := (t.lane l).clock.state
    period := (t.lane l).clock.pq / 16, ln := (t.lane l).clock.ln, cause := cause
    age := ((s.rwu.report l).snapshot.map Snapshot.age).getD (s.events + 1) }

/-- A mode change takes a snapshot of its lane and of no other (R158, R175). -/
def modeSnapshot (s t : State) (l : LaneId) : Prop :=
  t.rwu.report l = { s.rwu.report l with snapshot := some (snapshotOf s t l .modeChange) } ∧
    t.rwu.report l.other = s.rwu.report l.other

/-- What the capture buffer holds after the capture snapshot of a lane (R161). -/
def captureOf (x : Lane) (l : LaneId) (seq : BitVec 16) (age : Nat) : Capture :=
  { lane := l, seq := seq, mode := x.mode, supplyGood := x.supplyGood, clock := x.clock, expected := x.expected
    assembly := x.assembly.map fun a => (a.line, a.seen), objects := x.objects, firings := x.firings, valves := x.valves
    age := age }

/-! ### Resets -/

/-- R21 and R60: what either reset leaves of the intake and of the object table. -/
def Obligations.ResetsClearIntakeAndTable : Prop :=
  ∀ (s : State) (after : Nat), ∀ c ∈ [Instr.por after, .crstn after],
    ∃ t, exec c s = .next t ∧ t.ptu.fifo = [] ∧ t.ptu.stall = none ∧ t.rwu.queue = [] ∧
      ∀ l, (t.lane l).mode = .off ∧ (t.lane l).assembly = none ∧ (t.lane l).expected = 0 ∧ (t.lane l).objects = [] ∧
        freePlace (t.lane l).objects = some 0 ∧ (t.lane l).counters = {} ∧
        ∀ e, ringLane e.offset = l → t.judgeEntry e = t

/-- The memory path at the assertion of a reset input: FIFO, stall and writer queue emptied, a write that was stalled carried at
once, an access in progress and a part write on the S-port go on. -/
def pathAtReset (s : State) : Ptu :=
  { s.ptu with
    fifo := [], stall := none, writerQueue := [], guarded := false
    sport := if s.ptu.stall ≠ none ∧ s.ptu.sport = .free then .controller else s.ptu.sport }

/-- POR: every block at its POR value, the active banks EMPTY and the staged bank zero; the access in progress, the SRAM, the
level of the other reset input and the supply-good levels stay. That the line start time is 0 is the model's choice (log
entry 3). -/
def Obligations.PorTakesResetValues : Prop :=
  ∀ (s : State) (after : Nat), s.Settled →
    exec (.por after) s = .next
      { s.pass after with
        porAsserted := true
        lane0 := { supplyGood := s.lane0.supplyGood }
        lane1 := { supplyGood := s.lane1.supplyGood }
        ptu := pathAtReset s
        rtu := {}
        cmu := {}
        rwu := {} }

/-- The phase of a valve after a cancellation at a time: an opening has ended into a recovery of `recoveryUs`, a recovery goes
on with its timer, and the recovery end tick is unset. -/
def shutPhase (now recoveryUs : Nat) : ValvePhase → ValvePhase
  | .closed => .closed
  | .boost _ => .recover now recoveryUs none
  | .sustain _ _ _ => .recover now recoveryUs none
  | .recover b r _ => .recover b r none

/-- CRSTn: recipes, LN, k, Pq and the episode count are kept; the commit and every command are abandoned; both lanes are OFF with
the drain count 0, E 0, and nothing open, queued or counted; each valve finishes its recovery with its end tick unset and its
pending slot empty. That no deadline or synthetic time is pending afterwards is the model's reading (log entry 29), and that the
line start time stays is its choice (log entry 32). -/
def Obligations.CrstnKeepsRecipesAndRecoveries : Prop :=
  ∀ (s : State) (after : Nat), s.Settled →
    ∃ t, exec (.crstn after) s = .next t ∧ t.crstAsserted = true ∧ t.porAsserted = s.porAsserted ∧
      t.rtu = { s.rtu with commit := .idle } ∧ t.cmu = {} ∧ t.rwu = {} ∧ t.sram = s.sram ∧ t.ptu = pathAtReset s ∧
      ∀ l, t.lane l =
          { mode := .off, drainCount := 0, assembly := none, expected := 0, objects := [], firings := []
            valves := (t.lane l).valves, supplyGood := (s.lane l).supplyGood, episodeMissed := 0
            clock := { (s.lane l).clock with state := .idle, coastDeadline := none, nextSynthetic := none }
            table := (s.lane l).table, counters := {} } ∧
        ∀ v, (t.lane l).valve v =
          { phase := shutPhase (s.now + after) (s.lane l).block.recoveryUs ((s.lane l).valve v).phase, pending := none }

/-- The RESET snapshot that a release takes of a lane. -/
def resetSnapshot (x : Lane) (age : Nat) : Snapshot :=
  { counters := x.counters, mode := x.mode, clockState := x.clock.state, period := x.clock.pq / 16, ln := x.clock.ln
    cause := .reset, age := age }

/-- The release of a reset input. The only one asserted: FSEL is latched at POR's release alone, RESET_DONE joins the queue,
the common block and both lane blocks wait with one age (the step's number, log entry 17). While the other input stays
asserted, and for an input that is not asserted, nothing is announced (log entry 19). What is still on its way in the memory
path is completed first, the part write before the access (log entry 20), at each release, also while the other input stays
asserted (log entry 19). -/
def Obligations.ReleaseAnnouncesReset : Prop :=
  (∀ (s : State) (after : Nat) (fsel : BitVec 2), s.Settled → s.ptu.access = none → s.ptu.sport = .free →
    (s.porAsserted = true → s.crstAsserted = false → s.rwu = {} →
      exec (.porRelease after fsel) s = .next
        { s.pass after with
          porAsserted := false
          ptu := { s.ptu with frameSelect := fsel, guarded := false }
          rwu :=
            { queue := [⟨.resetDone fsel false, 0⟩]
              commonWaiting := some (s.events + 1)
              report0 := { snapshot := some (resetSnapshot s.lane0 (s.events + 1)) }
              report1 := { snapshot := some (resetSnapshot s.lane1 (s.events + 1)) } } }) ∧
    (s.crstAsserted = true → s.porAsserted = false → s.rwu = {} →
      exec (.crstnRelease after) s = .next
        { s.pass after with
          crstAsserted := false
          ptu := { s.ptu with guarded := false }
          rwu :=
            { queue := [⟨.resetDone s.ptu.frameSelect true, 0⟩]
              commonWaiting := some (s.events + 1)
              report0 := { snapshot := some (resetSnapshot s.lane0 (s.events + 1)) }
              report1 := { snapshot := some (resetSnapshot s.lane1 (s.events + 1)) }
              resetWarm := true } }) ∧
    (s.porAsserted = true → s.crstAsserted = true →
      exec (.porRelease after fsel) s = .next
          { s.pass after with porAsserted := false, ptu := { s.ptu with frameSelect := fsel, guarded := false } } ∧
        exec (.crstnRelease after) s = .next
          { s.pass after with crstAsserted := false, ptu := { s.ptu with guarded := false } }) ∧
    (s.porAsserted = false → exec (.porRelease after fsel) s = .next (s.pass after)) ∧
    (s.crstAsserted = false → exec (.crstnRelease after) s = .next (s.pass after))) ∧
  ∀ (s : State) (after : Nat) (fsel : BitVec 2) (c : Instr), s.Settled →
    (c = .porRelease after fsel ∧ s.porAsserted = true ∨
      c = .crstnRelease after ∧ s.crstAsserted = true) →
    ∃ t, exec c s = .next t ∧ t.ptu.access = none ∧ t.ptu.sport = .free ∧ t.ptu.guarded = false ∧
      (∀ o data, s.ptu.sport = .part o data →
        (∀ a, s.ptu.access = some a → a.write = true → a.addr ≠ frameAddress s o.toNat) →
        t.sram.readWord (frameAddress s o.toNat) = data) ∧
      (∀ a, s.ptu.access = some a → a.write = true →
        ∀ i : Fin 4, a.be[i] = true → t.sram.readByte (a.addr.toNat * 4 + i.val) = a.data.extractLsb' (8 * i.val) 8) ∧
      (∀ a, s.ptu.access = some a → a.write = false →
        (∀ o data, s.ptu.sport = .part o data → frameAddress s o.toNat ≠ a.addr) →
        t.ptu.readData = s.sram.readWord a.addr) ∧
      ∀ b, (∀ a, s.ptu.access = some a → a.write = true → ¬ wordBytes a.addr b) →
        (∀ o data, s.ptu.sport = .part o data → ¬ wordBytes (frameAddress s o.toNat) b) →
        t.sram.readByte b = s.sram.readByte b

/-! ### The U-port -/

/-- The state after a write has been accepted and before its copy has acted. -/
def acceptedWrite (s : State) (after : Nat) (addr : WordAddr) (data : Word) (be : Enables) : State :=
  { s.pass after with ptu := { s.ptu with access := some ⟨addr, true, data, be⟩ } }

/-- A read, a write outside the selected frame, a write to an unwatched offset and a partial write to the go word or the
consumer index only occupy the U-port. -/
def Obligations.UnwatchedAccessesOnlyCarried : Prop :=
  ∀ (s : State) (after : Nat) (addr : WordAddr) (data : Word) (be : Enables), s.PortReady →
    exec (.uPortRead after addr be) s =
      .next { s.pass after with ptu := { s.ptu with access := some ⟨addr, false, 0, be⟩ } } ∧
    ∀ o w, o = addr.toNat % 262144 → w = o % 4096 →
      (addr.toNat / 262144 ≠ s.ptu.frameSelect.toNat ∨ (9 ≤ o ∧ o < 0x400) ∨ (0x800 ≤ o ∧ o < 0x20000) ∨
          (0x20000 ≤ o ∧ ((1 ≤ w ∧ w < 1024) ∨ (3072 ≤ w ∧ w < 4095))) ∨ ((o = 7 ∨ o = 8) ∧ be ≠ 0xF)) →
        exec (.uPortWrite after addr data be) s = .next (acceptedWrite s after addr data be)

/-- An argument word write merges by byte enables into the shadow; a consumer index write replaces CI by the low nine bits;
nothing else changes. -/
def Obligations.MailboxWordsTaken : Prop :=
  ∀ (s : State) (after : Nat) (n : Fin 7) (data : Word) (be : Enables), s.PortReady →
    (∃ t, exec (.argumentWordWrite after n data be) s = .next t ∧
      t = { acceptedWrite s after (frameAddress s n.val) data be with
            cmu := { s.cmu with shadow := s.cmu.shadow.set n t.cmu.shadow[n] } } ∧
      ∀ i : Fin 4, t.cmu.shadow[n].extractLsb' (8 * i.val) 8 =
        if be[i] = true then data.extractLsb' (8 * i.val) 8 else s.cmu.shadow[n].extractLsb' (8 * i.val) 8) ∧
    exec (.consumerIndexWrite after data) s = .next
      { acceptedWrite s after (frameAddress s 8) data 0xF with
        cmu := { s.cmu with consumerIndex := BitVec.ofNat 9 (data.toNat % 512) } }

/-- A staging write merges by byte enables into the staged bank. With no commit in progress nothing else changes; a commit in
SCANNING or SWAPPING ends and its command is answered STAGING_CHANGED with the swapped mask. -/
def Obligations.StagingWriteMergesAndEndsCommit : Prop :=
  ∀ (s : State) (after : Nat) (o : BitVec 10) (data : Word) (be : Enables), s.PortReady → s.cmu.slot = none →
    ∃ t, exec (.stagingWrite after o data be) s = .next t ∧
      t.rtu.staged = s.rtu.staged.set o.toNat t.rtu.staged[o.toNat] ∧
      (∀ i : Fin 4, t.rtu.staged[o.toNat].extractLsb' (8 * i.val) 8 =
        if be[i] = true then data.extractLsb' (8 * i.val) 8 else s.rtu.staged[o.toNat].extractLsb' (8 * i.val) 8) ∧
      t.rtu.commit = .idle ∧ t.lane0 = s.lane0 ∧ t.lane1 = s.lane1 ∧ t.sram = s.sram ∧
      t.ptu = { s.ptu with access := some ⟨frameAddress s (0x400 + o.toNat), true, data, be⟩ } ∧
      (s.rtu.commit = .idle → t.cmu = s.cmu ∧ t.rwu = s.rwu) ∧
      (∀ r e m k, s.cmu.executing = some r → s.rtu.commit = .scanning e m k →
        t.cmu = { s.cmu with executing := none } ∧
          t.rwu = s.rwu.enqueue (.commandDone r.code r.laneField r.seq .stagingChanged 0)) ∧
      (∀ r m k, s.cmu.executing = some r → s.rtu.commit = .swapping m k →
        t.cmu = { s.cmu with executing := none } ∧
          t.rwu = s.rwu.enqueue (.commandDone r.code r.laneField r.seq .stagingChanged (BitVec.ofNat 32 k.toNat)))

/-- A write to a watched scan-ring word joins the observation FIFO at its tail, or is stalled when the FIFO holds 64. -/
def Obligations.ScanWriteAdmittedOrStalled : Prop :=
  ∀ (s : State) (after : Nat) (l : LaneId) (slot : BitVec 4) (w : BitVec 12) (data : Word) (be : Enables), s.PortReady →
    s.ptu.stall = none → (w.toNat = 0 ∨ (1024 ≤ w.toNat ∧ w.toNat < 3072) ∨ w.toNat = 4095) →
      ∃ e : FifoEntry,
        e = ⟨BitVec.ofNat 18 (0x20000 + 0x10000 * laneNumber l + 4096 * slot.toNat + w.toNat), data, be⟩ ∧
          ringLane e.offset = l ∧
        (s.ptu.fifo.length < 64 →
          exec (.scanRingWrite after l slot w data be) s = .next
            { s.pass after with
              ptu :=
                { s.ptu with
                  access := some ⟨frameAddress s e.offset.toNat, true, data, be⟩
                  fifo := s.ptu.fifo ++ [e] } }) ∧
        (64 ≤ s.ptu.fifo.length →
          exec (.scanRingWrite after l slot w data be) s = .next
            { s.pass after with
              ptu :=
                { s.ptu with
                  access := some ⟨frameAddress s e.offset.toNat, true, data, be⟩
                  stall := some ⟨e, s.now + after⟩ } })

/-- The go word's access, as it stands in progress after the command has executed. -/
def goAccess (s : State) (code : BitVec 8) (u : BitVec 6) (f : BitVec 2) (q : BitVec 16) : Access :=
  ⟨frameAddress s 7, true, code ++ u ++ f ++ q, 0xF⟩

/-- The go word rows of one set of operands, each with its command code. -/
def goRows (n : Nat) (code : BitVec 8) (u : BitVec 6) (f : BitVec 2) (q : BitVec 16) : List (BitVec 8 × Instr) :=
  [(0x01, .laneStart n u f q), (0x02, .laneHold n u f q), (0x03, .laneResume n u f q), (0x04, .laneStop n u f q),
    (0x10, .tableCommit n u f q), (0x20, .valveTest n u f q), (0x30, .statsSnapshot n u f q), (0x31, .captureState n u f q),
    (code, .badCommand n code u f q)]

/-- The U-port rows of one set of operands, each with the access it presents. -/
def portRows (s : State) (n : Nat) (addr : WordAddr) (i : Fin 7) (o : BitVec 10) (l : LaneId) (slot : BitVec 4) (w : BitVec 12)
    (code : BitVec 8) (u : BitVec 6) (f : BitVec 2) (q : BitVec 16) (data : Word) (be : Enables) : List (Instr × Access) :=
  [(.uPortRead n addr be, ⟨addr, false, 0, be⟩), (.uPortWrite n addr data be, ⟨addr, true, data, be⟩),
    (.argumentWordWrite n i data be, ⟨frameAddress s i.val, true, data, be⟩),
    (.consumerIndexWrite n data, ⟨frameAddress s 8, true, data, 0xF⟩),
    (.stagingWrite n o data be, ⟨frameAddress s (0x400 + o.toNat), true, data, be⟩),
    (.scanRingWrite n l slot w data be,
      ⟨frameAddress s (0x20000 + 0x10000 * laneNumber l + 4096 * slot.toNat + w.toNat), true, data, be⟩)] ++
    (goRows n code u f q).map fun p => (p.2, goAccess s p.1 u f q)

/-- While an access is in progress the U-port accepts none (turned away: log entry 5). A free U-port accepts the access
unchanged, and UWAIT holds the controller; while a reset input is asserted nothing else comes of it. -/
def Obligations.BusyPortAndResetObserveNothing : Prop :=
  ∀ (s : State) (n : Nat) (addr : WordAddr) (i : Fin 7) (o : BitVec 10) (l : LaneId) (slot : BitVec 4) (w : BitVec 12)
    (code : BitVec 8) (u : BitVec 6) (f : BitVec 2) (q : BitVec 16) (data : Word) (be : Enables), s.Settled →
    ∀ p ∈ portRows s n addr i o l slot w code u f q data be,
      (s.ptu.access.isSome → s.uwait = true ∧ exec p.1 s = .next (s.pass n)) ∧
      (s.ptu.access = none → s.uwait = false ∧
        ∃ t, exec p.1 s = .next t ∧ t.ptu.access = some p.2 ∧ t.uwait = true ∧ t.sram = s.sram) ∧
      (s.ptu.access = none → s.inReset = true →
        exec p.1 s = .next { s.pass n with ptu := { s.ptu with access := some p.2 } })

/-! ### The S-port and the SRAM -/

/-- A controller access is completed by the SRAM: a read returns the SRAM word, a write puts its enabled bytes into its word;
the U-port and the S-port are free and nothing else changes. With no controller access on the S-port nothing completes. -/
def Obligations.ControllerAccessReachesSram : Prop :=
  (∀ (s : State) (after : Nat) (a : Access), s.Settled → s.ptu.sport = .controller → s.ptu.access = some a →
    (a.write = false → ∃ t, exec (.controllerAccessDone after) s = .next t ∧
      t = { s.pass after with
            ptu := { s.ptu with sport := .free, access := none, readData := s.sram.readWord a.addr } } ∧
      t.readData = s.sram.readWord a.addr ∧ t.uwait = false ∧ t.ssel = false) ∧
    (a.write = true → ∃ t, exec (.controllerAccessDone after) s = .next t ∧
      t = { s.pass after with ptu := { s.ptu with sport := .free, access := none }, sram := t.sram } ∧
      (∀ i : Fin 4, t.sram.readByte (a.addr.toNat * 4 + i.val) =
        if a.be[i] = true then a.data.extractLsb' (8 * i.val) 8 else s.sram.readByte (a.addr.toNat * 4 + i.val)) ∧
      t.uwait = false ∧ t.ssel = false)) ∧
  ∀ (s : State) (after : Nat), s.Settled → s.ptu.sport ≠ .controller →
    exec (.controllerAccessDone after) s = .next (s.pass after)

/-- A part write is completed by the SRAM as a full write at the selected frame and reported to the RWU. The report of a unit's
last word completes the unit: a ring record moves PI to its slot; the first of two owed lane blocks clears its owed mark, the
second also completes STATS_SNAPSHOT with its clear flag; a dump completes CAPTURE_STATE with its generation. With no unit in
progress the word is written all the same (a reset has come between). -/
def Obligations.PartWordReachesSramAndIsReported : Prop :=
  (∀ (s : State) (after : Nat) (o : FrameOffset) (data : Word) (u : WriterUnit), s.Settled → s.ptu.sport = .part o data →
    s.rwu.unit = some u → 2 ≤ u.unreported →
    ∃ t, exec (.partWriteDone after) s = .next t ∧
      t = { s.pass after with
            ptu := { s.ptu with sport := .free }, sram := t.sram
            rwu := { s.rwu with unit := some { u with unreported := u.unreported - 1 } } } ∧
      t.sram.readWord (frameAddress s o.toNat) = data) ∧
  (∀ (s : State) (after : Nat) (o : FrameOffset) (data : Word) (u : WriterUnit), s.Settled → s.ptu.sport = .part o data →
    s.rwu.unit = some u → u.unreported = 1 → s.cmu.slot = none →
    ∃ t, exec (.partWriteDone after) s = .next t ∧ t.sram.readWord (frameAddress s o.toNat) = data ∧
      t.lane0 = s.lane0 ∧ t.lane1 = s.lane1 ∧ t.rtu = s.rtu ∧ t.ptu = { s.ptu with sport := .free } ∧
      (∀ slot, u.kind = .ringRecord slot →
        t.rwu = { s.rwu with unit := none, producerIndex := slot } ∧ t.cmu = s.cmu) ∧
      (u.kind = .commonBlock → t.rwu = { s.rwu with unit := none } ∧ t.cmu = s.cmu) ∧
      (∀ l, u.kind = .laneBlock l false → t.rwu = { s.rwu with unit := none } ∧ t.cmu = s.cmu) ∧
      (∀ l, u.kind = .laneBlock l true → (s.rwu.report l.other).owed = true →
        t.cmu = s.cmu ∧
        t.rwu = ({ s.rwu with unit := none } : Rwu).setReport l { s.rwu.report l with owed := false }) ∧
      (∀ l r, u.kind = .laneBlock l true → (s.rwu.report l.other).owed = false → s.cmu.executing = some r → r.code = 0x30 →
        t.cmu = { s.cmu with executing := none } ∧
        t.rwu = (({ s.rwu with unit := none } : Rwu).setReport l { s.rwu.report l with owed := false }).enqueue
          (.commandDone 0x30 r.laneField r.seq .ok r.args[0])) ∧
      (∀ r, u.kind = .captureDump → s.cmu.executing = some r →
        t.cmu = { s.cmu with executing := none } ∧
        t.rwu = ({ s.rwu with unit := none } : Rwu).enqueue
          (.commandDone r.code r.laneField r.seq .ok s.rwu.captureGeneration))) ∧
  (∀ (s : State) (after : Nat) (o : FrameOffset) (data : Word), s.Settled → s.ptu.sport = .part o data → s.rwu.unit = none →
    ∃ t, exec (.partWriteDone after) s = .next t ∧
      t = { s.pass after with ptu := { s.ptu with sport := .free }, sram := t.sram } ∧
      t.sram.readWord (frameAddress s o.toNat) = data) ∧
  ∀ (s : State) (after : Nat), s.Settled → (∀ o data, s.ptu.sport ≠ .part o data) →
    exec (.partWriteDone after) s = .next (s.pass after)

/-- The arbiter on a free S-port: a head word of 800 reference clocks first, if the guard has placed no word before this access
yet (log entry 31), then the controller access, then the head word; an access held in a stall does not wait for the port. The
S-port's outputs are those of the access it carries. -/
def Obligations.ArbiterChoosesInOrder : Prop :=
  (∀ (s : State) (after : Nat), s.Settled →
    (s.ptu.sport ≠ .free → exec (.sportArbitration after) s = .next (s.pass after)) ∧
    (s.ptu.sport = .free → s.ptu.access.isSome → s.ptu.stall = none →
      (s.ptu.guarded = true ∨ ∀ w, s.ptu.writerQueue.head? = some w → s.now + after < w.entered + 800) →
        exec (.sportArbitration after) s = .next
          { s.pass after with ptu := { s.ptu with sport := .controller, guarded := false } }) ∧
    (∀ w rest, s.ptu.sport = .free → s.ptu.access.isSome → s.ptu.stall = none → s.ptu.guarded = false →
      s.ptu.writerQueue = w :: rest → w.entered + 800 ≤ s.now + after →
        exec (.sportArbitration after) s = .next
          { s.pass after with
            ptu := { s.ptu with sport := .part w.offset w.data, writerQueue := rest, guarded := true } }) ∧
    (∀ w rest, s.ptu.sport = .free → s.ptu.writerQueue = w :: rest → (s.ptu.access = none ∨ s.ptu.stall.isSome) →
        exec (.sportArbitration after) s = .next
          { s.pass after with ptu := { s.ptu with sport := .part w.offset w.data, writerQueue := rest } }) ∧
    (s.ptu.sport = .free → s.ptu.writerQueue = [] → (s.ptu.access = none ∨ s.ptu.stall.isSome) →
      exec (.sportArbitration after) s = .next (s.pass after))) ∧
  ∀ s : State,
    (s.ptu.sport = .free → s.ssel = false ∧ s.sportAddress = none ∧ s.sportWrite = none ∧ s.sportEnables = none ∧
      s.sportData = none) ∧
    (∀ a, s.ptu.sport = .controller → s.ptu.access = some a →
      s.ssel = true ∧ s.sportAddress = some a.addr ∧ s.sportWrite = some a.write ∧ s.sportEnables = some a.be ∧
        (a.write = true → s.sportData = some a.data)) ∧
    ∀ o data, s.ptu.sport = .part o data →
      s.ssel = true ∧ s.sportAddress = some (frameAddress s o.toNat) ∧ s.sportWrite = some true ∧
        s.sportEnables = some 0xF ∧ s.sportData = some data

/-! ### The writer -/

/-- The idle writer: a queued record goes to the slot after PI unless that slot is CI; with the queue empty or the ring full
the record stays and the oldest waiting block is chosen, its words those of the layout. The unit in progress hands its next
word, with the time it enters, while the writer queue holds fewer than 16. A writer that is not idle chooses nothing. A record made
joins the event queue at its tail with the drop count, which then is 0, while the queue holds fewer than 24; with 24 it is
discarded, the drop count rises by one up to 255, the records dropped total by one, and nothing else changes. -/
def Obligations.WriterChoosesAndHands : Prop :=
  (∀ (s : State) (after : Nat), s.Settled → s.rwu.unit = none →
    (∀ q rest, s.rwu.queue = q :: rest → s.rwu.producerIndex + 1 ≠ s.cmu.consumerIndex →
      exec (.writerUnitChoice after) s = .next
        { s.pass after with
          rwu :=
            { s.rwu with
              queue := rest
              unit := some
                ⟨.ringRecord (s.rwu.producerIndex + 1), ringRecordWords q (s.rwu.producerIndex + 1), 9⟩ } }) ∧
    ((s.rwu.queue = [] ∨ s.rwu.producerIndex + 1 = s.cmu.consumerIndex) →
      (∀ a, oldestBlock s.rwu.waitingBlocks = some (a, .common) →
        exec (.writerUnitChoice after) s = .next
          { s.pass after with
            rwu :=
              { s.rwu with
                commonWaiting := none
                unit := some
                  ⟨.commonBlock, placeFrom 0x2000 (commonBlockWords s.rwu.producerIndex s.ptu.frameSelect s.rwu.resetWarm
                    s.rwu.droppedTotal), 16⟩ } }) ∧
      (∀ a l p, oldestBlock s.rwu.waitingBlocks = some (a, .laneBlock l) → (s.rwu.report l).snapshot = some p →
        exec (.writerUnitChoice after) s = .next
          { s.pass after with
            rwu :=
              { s.rwu.setReport l
                  { s.rwu.report l with snapshot := none, generation := (s.rwu.report l).generation + 1 } with
                unit := some
                  ⟨.laneBlock l (s.rwu.report l).owed,
                    placeFrom (0x2010 + 0x30 * laneNumber l) (laneBlockWords p ((s.rwu.report l).generation + 1)), 48⟩ } }) ∧
      (∀ a c, oldestBlock s.rwu.waitingBlocks = some (a, .dump) → s.rwu.capture = some c →
        exec (.writerUnitChoice after) s = .next
          { s.pass after with
            rwu :=
              { s.rwu with
                capture := none, captureGeneration := s.rwu.captureGeneration + 1
                unit := some
                  ⟨.captureDump, placeFrom 0x3000 (captureWords c (s.rwu.captureGeneration + 1)), 4096⟩ } }) ∧
      (s.rwu.waitingBlocks = [] → exec (.writerUnitChoice after) s = .next (s.pass after)))) ∧
  (∀ (s : State) (after : Nat), s.Settled → s.rwu.unit.isSome → exec (.writerUnitChoice after) s = .next (s.pass after)) ∧
  (∀ (s : State) (after : Nat), s.Settled → (∀ u, s.rwu.unit = some u → u.toHand = []) →
    exec (.writerWordHanded after) s = .next (s.pass after)) ∧
  (∀ (s : State) (after : Nat) (u : WriterUnit) (w : FrameOffset × Word) (rest : List (FrameOffset × Word)), s.Settled →
    s.rwu.unit = some u → u.toHand = w :: rest →
    (s.ptu.writerQueue.length < 16 →
      exec (.writerWordHanded after) s = .next
        { s.pass after with
          rwu := { s.rwu with unit := some { u with toHand := rest } }
          ptu := { s.ptu with writerQueue := s.ptu.writerQueue ++ [⟨w.1, w.2, s.now + after⟩] } }) ∧
    (16 ≤ s.ptu.writerQueue.length → exec (.writerWordHanded after) s = .next (s.pass after))) ∧
  (∀ (s : State) (r : Record),
    (s.rwu.queue.length < 24 →
      s.record r = { s with rwu := { s.rwu with queue := s.rwu.queue ++ [⟨r, s.rwu.dropCount⟩], dropCount := 0 } }) ∧
    (24 ≤ s.rwu.queue.length →
      (s.rwu.dropCount < 255 →
        s.record r =
          { s with
            rwu := { s.rwu with dropCount := s.rwu.dropCount + 1, droppedTotal := s.rwu.droppedTotal + 1 } }) ∧
      (s.rwu.dropCount = 255 →
        s.record r = { s with rwu := { s.rwu with droppedTotal := s.rwu.droppedTotal + 1 } }))) ∧
  ∀ (s : State) (r : Record) (rs : List Record),
    s.record r = { s with rwu := s.rwu.enqueue r } ∧ s.records [] = s ∧ s.records (r :: rs) = (s.record r).records rs

/-- A flag as one bit. -/
def bit (b : Bool) : BitVec 1 := BitVec.ofBool b

/-- A number as the low bits of a word, right-aligned (R199). -/
def aligned (w n : Nat) : Word := BitVec.setWidth 32 (BitVec.ofNat w n)

/-- The low word of a tick time. -/
def lowWord (t : TickTime) : Word := t.extractLsb' 0 32

/-- The high word of a tick time: its bits 35..32 in bits 3..0 (R199). -/
def highWord (t : TickTime) : Word := 0#28 ++ t.extractLsb' 32 4

/-- A record's kind code, the lane of its header and its content words, each word from bit 31 down (R200, 11.4). -/
def recordLayout : Record → BitVec 8 × BitVec 2 × List Word
  | .resetDone fs warm => (0x01, 0, [0x6412#16 ++ 0#8 ++ 0x01#8, 0#30 ++ fs, 0#31 ++ bit warm, 0, 0, 0, 0])
  | .commandDone code f seq status detail =>
    (0x02, f, [code ++ 0#6 ++ f ++ seq, aligned 8 status.code, detail, 0, 0, 0, 0])
  | .modeChange l before after cause seq ln =>
    (0x03, laneFieldOf l, [aligned 3 before.code, aligned 3 after.code, aligned 3 cause.code, 0#16 ++ seq, ln, 0, 0])
  | .clockEvent l event kind episode ln period =>
    (0x04, laneFieldOf l,
      [aligned 3 event.code, aligned 2 (lockKindCode kind), aligned 8 episode, ln, aligned 16 period, 0, 0])
  | .supplyEvent l restored count mode =>
    (0x05, laneFieldOf l, [0#31 ++ bit restored, aligned 16 count, aligned 3 mode.code, 0, 0, 0, 0])
  | .lineFault l reason slot header line seen =>
    (0x06, laneFieldOf l, [aligned 3 reason.code, 0#12 ++ slot ++ header, line, aligned 12 seen, 0, 0, 0])
  | .objectRejected l r =>
    (0x10, laneFieldOf l,
      [r.firstLine, r.lastLine, 0#6 ++ BitVec.ofNat 10 r.cmin ++ 0#6 ++ BitVec.ofNat 10 r.cmax, aligned 18 r.area,
        BitVec.ofNat 8 r.reason.code ++
          (0#1 ++ bit r.truncated ++ bit r.clamped ++ bit r.wide ++ bit r.cluster ++ bit r.long ++ bit r.merged ++ bit r.mixed) ++
          BitVec.ofNat 8 r.firstMiss.code ++ BitVec.ofNat 8 r.firstValve,
        BitVec.ofNat 8 r.planned ++ BitVec.ofNat 8 r.scheduled ++ BitVec.ofNat 8 r.missed ++ 0#8, lowWord r.openTick])
  | .overflowRun l line eject runs first last columns =>
    (0x11, laneFieldOf l,
      [line, 0#31 ++ bit eject, aligned 10 runs, 0#6 ++ BitVec.ofNat 10 first ++ 0#6 ++ BitVec.ofNat 10 last,
        aligned 11 columns, 0, 0])
  | .firingsCancelled l reason queued pending openings =>
    (0x12, laneFieldOf l,
      [aligned 8 reason.code, aligned 7 queued, aligned 7 pending, aligned 7 openings, 0, 0, 0])
  | .valveLimit l valve test tag openTick closeTick maxOnUs =>
    (0x13, laneFieldOf l,
      [aligned 6 valve.val, 0#31 ++ bit test, tag, lowWord openTick, lowWord closeTick, aligned 15 maxOnUs, 0])

/-- The eight words of a queued record (R200). -/
def recordWords (q : QueuedRecord) : List Word :=
  ((recordLayout q.record).1 ++ 0#6 ++ (recordLayout q.record).2.1 ++ 0#8 ++ BitVec.ofNat 8 q.drops) ::
    (recordLayout q.record).2.2

/-- The 12 words of an object's place in a dump (R203). -/
def objectPlace (o : OpenObject) : List Word :=
  [BitVec.ofNat 8 o.slotId ++ 0#22 ++ bit o.merged ++ bit o.mixed, o.firstLine, o.lastLine,
    0#6 ++ BitVec.ofNat 10 o.spanStart ++ 0#6 ++ BitVec.ofNat 10 o.spanEnd,
    0#6 ++ BitVec.ofNat 10 o.cmin ++ 0#6 ++ BitVec.ofNat 10 o.cmax, aligned 18 o.area, aligned 18 o.counts.sound,
    aligned 18 o.counts.chalk, aligned 18 o.counts.yellow, aligned 18 o.counts.dark, aligned 18 o.counts.foreign,
    aligned 18 o.counts.stone]

/-- The 8 words of a queue entry's place in a dump (R203). -/
def entryPlace (f : Firing) : List Word :=
  [0#2 ++ BitVec.ofNat 6 f.valve.val ++ 0#5 ++ bit f.delayed ++ bit f.clamped ++ bit f.truncated ++ 0#8 ++
      BitVec.ofNat 8 f.joined,
    lowWord f.openTick, highWord f.openTick, lowWord f.closeTick, highWord f.closeTick, f.tag, 0, 0]

/-- Words 0 to 2 of a valve's place in BOOST and SUSTAIN (R203). -/
def openingPlace (phase : BitVec 2) (o : Opening) : List Word :=
  match o.source with
  | .firing f => [0#6 ++ phase ++ 0#16 ++ BitVec.ofNat 8 f.joined, lowWord f.closeTick, highWord f.closeTick]
  | .test _ => [0#6 ++ phase ++ 0#7 ++ 1#1 ++ 0#16, 0, 0]

/-- The 16 words of a valve's place in a dump (R203). -/
def valvePlace (y : Valve) : List Word :=
  (match y.phase with
    | .closed => [0, 0, 0]
    | .boost o => openingPlace 1 o
    | .sustain o _ _ => openingPlace 2 o
    | .recover _ _ _ => [0#6 ++ 3#2 ++ 0#24, 0, 0]) ++
  (match y.pending with
    | some f => 1 :: entryPlace f
    | none => List.replicate 9 0) ++
  [0, 0, 0, 0]

/-- The codes of R202. -/
def codesAssigned : Prop :=
  [CommandStatus.ok, .badCommand, .badArgument, .wrongMode, .noTable, .sigMismatch, .stagingChanged, .tableInvalid, .valveBusy,
      .noSupply, .superseded].map CommandStatus.code = [0, 1, 2, 3, 4, 5, 6, 7, 8, 9, 10] ∧
    [LaneMode.off, .run, .drain, .hold, .fault].map LaneMode.code = [0, 1, 2, 3, 4] ∧
    [ModeCause.start, .hold, .resume, .stop, .drained, .clockLost].map ModeCause.code = [1, 2, 3, 4, 5, 6] ∧
    [ClockState.idle, .waiting, .locked, .coasting, .lost].map ClockState.code = [0, 1, 2, 3, 4] ∧
    [LineFaultReason.ahead, .stale, .restart, .incomplete, .endMismatch, .loss, .lateEnd].map LineFaultReason.code =
      [1, 2, 3, 4, 5, 6, 7] ∧
    [RejectReason.stone, .foreign, .long, .dark, .yellow, .chalk].map RejectReason.code = [1, 2, 3, 4, 5, 6] ∧
    [MissReason.noMiss, .noValve, .late, .valveBusy, .queueFull, .supply, .stopped, .clockLost].map MissReason.code =
      [0, 1, 2, 3, 4, 5, 6, 7] ∧
    [SnapshotCause.interval, .modeChange, .command, .reset].map SnapshotCause.code = [0, 1, 2, 3] ∧
    [none, some LockKind.first, some .newLine, some .reAnchor].map lockKindCode = [0, 1, 2, 3]

/-- Of the waiting block units the oldest is taken, and of equals the first: the common block, lane 0's, lane 1's, the dump. Every
unit's words are those of 11.4 to 11.7, with the codes of 11.6, at increasing offsets: a record's eight words in its slot and then
the PI word, the 16 words of the common block, the 48 of a lane block, the 4,096 of a capture dump. That an age is the number of a
step is the model's (log entry 17). -/
def Obligations.BlockUnitsOrderedAndFormed : Prop :=
  (∀ bs b, oldestBlock bs = some b →
    ∃ pre post, bs = pre ++ b :: post ∧ (∀ c ∈ pre, b.1 < c.1) ∧ ∀ c ∈ post, b.1 ≤ c.1) ∧
  (∀ bs, oldestBlock bs = none → bs = []) ∧
  (∀ w : Rwu, w.waitingBlocks =
    (match w.commonWaiting with | some a => [(a, .common)] | none => []) ++
    (match w.report0.snapshot with | some p => [(p.age, .laneBlock .lane0)] | none => []) ++
    (match w.report1.snapshot with | some p => [(p.age, .laneBlock .lane1)] | none => []) ++
    (match w.capture with | some c => [(c.age, .dump)] | none => [])) ∧
  (∀ (base : Nat) (ws : List Word), (placeFrom base ws).map Prod.snd = ws ∧
    ∀ (i : Nat) (p : FrameOffset × Word), (placeFrom base ws)[i]? = some p → p.1 = BitVec.ofNat 18 (base + i)) ∧
  (∀ (q : QueuedRecord) (slot : BitVec 9), (ringRecordWords q slot).length = 9 ∧
    (ringRecordWords q slot).map Prod.snd = recordWords q ++ [(0#23 ++ slot : Word)] ∧
    (∀ (i : Nat) (p : FrameOffset × Word), i < 8 → (ringRecordWords q slot)[i]? = some p →
      p.1.toNat = 0x1000 + 8 * slot.toNat + i) ∧
    (ringRecordWords q slot).getLast?.map Prod.fst = some 0x2000) ∧
  (∀ (pi : BitVec 9) (fs : BitVec 2) (warm : Bool) (dropped : Word),
    commonBlockWords pi fs warm dropped =
      [0#23 ++ pi, 0x6412#16 ++ 0#8 ++ 0x01#8, 0#30 ++ fs, 0#31 ++ bit warm, dropped] ++ List.replicate 11 0) ∧
  (∀ (p : Snapshot) (c : Counters) (g : Word), c = p.counters →
    (laneBlockWords p g).length = 48 ∧
    laneBlockWords p g =
      [g, c.linesProcessed, c.linesVoid, c.linesSkipped, c.linesDamaged, c.linesStale, c.linesAhead, c.strays, c.lostWrites,
        c.objectsClosed, c.objectsAbandoned, c.untrackedRuns, c.accepted, c.fragments, c.rejectedStone, c.rejectedForeign,
        c.rejectedLong, c.rejectedDark, c.rejectedYellow, c.rejectedChalk, c.firingsOpened, c.missedNoValve, c.missedLate,
        c.missedValveBusy, c.missedQueueFull, c.missedSupply, c.missedStopped, c.missedClockLost, c.valveLimitTrips, c.glitches,
        c.jitter, c.coastEpisodes, aligned 3 p.mode.code, aligned 3 p.clockState.code, aligned 16 p.period, p.ln,
        aligned 2 p.cause.code] ++ List.replicate 10 0 ++ [g]) ∧
  (∀ (c : Capture) (g : Word), (captureWords c g).length = 4096 ∧
    (c.objects.length ≤ 48 → c.firings.length ≤ 96 →
      captureWords c g =
        [g, 0#30 ++ laneFieldOf c.lane, 0#16 ++ c.seq, aligned 3 c.mode.code, 0#31 ++ bit c.supplyGood,
          aligned 3 c.clock.state.code, c.clock.ln, aligned 4 c.clock.k, aligned 20 c.clock.pq, aligned 8 c.clock.episode,
          c.expected, 0#31 ++ bit c.assembly.isSome, (match c.assembly with | some a => a.1 | none => 0),
          (match c.assembly with | some a => aligned 12 a.2 | none => 0), aligned 6 c.objects.length,
          aligned 7 c.firings.length] ++ List.replicate 48 0 ++
        c.objects.flatMap objectPlace ++ List.replicate (12 * (48 - c.objects.length)) 0 ++
        c.firings.flatMap entryPlace ++ List.replicate (8 * (96 - c.firings.length)) 0 ++
        c.valves.toList.flatMap valvePlace ++ List.replicate 1663 0 ++ [g])) ∧
  codesAssigned

/-! ### Go words -/

/-- LANE_START accepted in OFF: mode, E, the seeded clock and the drain count; MODE_CHANGE then COMMAND_DONE; a snapshot of the
lane; nothing else. That MODE_CHANGE carries the LN before the clock is seeded is the model's reading (log entry 12), and that the
clock keeps its line start time is the model's choice (log entry 32). -/
def Obligations.LaneStartSeedsTheLane : Prop :=
  ∀ (s : State) (n : Nat) (u : BitVec 6) (l : LaneId) (q : BitVec 16), s.CommandReady 2 → (s.lane l).mode = .off →
    (s.lane l).table ≠ none → s.cmu.shadow[0].toNat ≤ 65535 → 2500 ≤ s.cmu.shadow[1].toNat →
    s.cmu.shadow[1].toNat ≤ 50000 →
    ∃ t, exec (.laneStart n u (laneFieldOf l) q) s = .next t ∧
      t.lane l =
        { s.lane l with
          mode := .run, drainDue := false, drainCount := 0, assembly := none, expected := s.cmu.shadow[0]
          clock :=
            { (s.lane l).clock with
              state := .waiting, pq := 16 * s.cmu.shadow[1].toNat, ln := s.cmu.shadow[0] - 1, k := 15, episode := 0
              coastDeadline := none, nextSynthetic := none } } ∧
      t.lane l.other = s.lane l.other ∧ t.rtu = s.rtu ∧ t.cmu = s.cmu ∧ t.sram = s.sram ∧
      t.ptu = { s.ptu with access := some (goAccess s 0x01 u (laneFieldOf l) q) } ∧
      t.rwu.queue = s.rwu.queue ++
        [⟨.modeChange l .off .run .start q (s.lane l).clock.ln, s.rwu.dropCount⟩,
          ⟨.commandDone 0x01 (laneFieldOf l) q .ok 1, 0⟩] ∧
      ∃ p, (t.rwu.report l).snapshot = some p ∧ p.cause = .modeChange ∧ p.mode = .run ∧ p.clockState = .waiting ∧
        p.counters = (s.lane l).counters

/-- LANE_HOLD takes RUN to DRAIN with the drain count 0; LANE_RESUME takes HOLD and DRAIN to RUN; the lane's blocks keep their
state, and the snapshot of the mode change is taken. -/
def Obligations.HoldAndResumeChangeMode : Prop :=
  ∀ (s : State) (n : Nat) (u : BitVec 6) (l : LaneId) (q : BitVec 16), s.CommandReady 2 →
    ((s.lane l).mode = .run →
      ∃ t, exec (.laneHold n u (laneFieldOf l) q) s = .next t ∧
        t.lane l = { s.lane l with mode := .drain, drainDue := false, drainCount := 0 } ∧
        t.lane l.other = s.lane l.other ∧ t.rtu = s.rtu ∧ t.cmu = s.cmu ∧ t.sram = s.sram ∧
        t.rwu.queue = s.rwu.queue ++
          [⟨.modeChange l .run .drain .hold q (s.lane l).clock.ln, s.rwu.dropCount⟩,
            ⟨.commandDone 0x02 (laneFieldOf l) q .ok 2, 0⟩] ∧
        modeSnapshot s t l) ∧
    (((s.lane l).mode = .hold ∨ (s.lane l).mode = .drain) →
      ∃ t, exec (.laneResume n u (laneFieldOf l) q) s = .next t ∧
        t.lane l = { s.lane l with mode := .run, drainDue := false } ∧
        t.lane l.other = s.lane l.other ∧ t.rtu = s.rtu ∧ t.cmu = s.cmu ∧ t.sram = s.sram ∧
        t.rwu.queue = s.rwu.queue ++
          [⟨.modeChange l (s.lane l).mode .run .resume q (s.lane l).clock.ln, s.rwu.dropCount⟩,
            ⟨.commandDone 0x03 (laneFieldOf l) q .ok 1, 0⟩] ∧
        modeSnapshot s t l)

/-- LANE_STOP in a lane that is not OFF: the assembly is discarded, the objects are abandoned and counted, the queue and the
pending slots are emptied and counted STOPPED, every opening ends, the clock becomes IDLE with LN, k and Pq kept; the records
come in order; the snapshot of the mode change is taken. That the line start time is kept is the model's choice (log entry 32),
as is that no deadline or synthetic time stays pending (log entry 29). -/
def Obligations.LaneStopCancelsAndAbandons : Prop :=
  ∀ (s : State) (n : Nat) (u : BitVec 6) (l : LaneId) (q : BitVec 16) (queued pendings openings : Nat),
    s.CommandReady 3 → (s.lane l).mode ≠ .off → queued = (s.lane l).firings.length →
    pendings = (s.lane l).countValves (fun y => y.pending.isSome) →
    openings = (s.lane l).countValves (fun y => y.opening.isSome) →
    ∃ t, exec (.laneStop n u (laneFieldOf l) q) s = .next t ∧
      t.lane l =
        { s.lane l with
          mode := .off, drainDue := false, assembly := none, objects := [], firings := [], valves := (t.lane l).valves
          clock := { (s.lane l).clock with state := .idle, coastDeadline := none, nextSynthetic := none }
          counters :=
            { (s.lane l).counters with
              objectsAbandoned := (s.lane l).counters.objectsAbandoned + BitVec.ofNat 32 (s.lane l).objects.length
              missedStopped := (s.lane l).counters.missedStopped + BitVec.ofNat 32 (queued + pendings) } } ∧
      (∀ v, (t.lane l).valve v =
        { phase := shutPhase (s.now + n) (s.lane l).block.recoveryUs ((s.lane l).valve v).phase, pending := none }) ∧
      t.lane l.other = s.lane l.other ∧ t.rtu = s.rtu ∧ t.cmu = s.cmu ∧ t.sram = s.sram ∧
      t.rwu.queue = s.rwu.queue ++
        ⟨.modeChange l (s.lane l).mode .off .stop q (s.lane l).clock.ln, s.rwu.dropCount⟩ ::
          ((if queued + pendings + openings = 0 then []
            else [⟨.firingsCancelled l .stopped queued pendings openings, 0⟩]) ++
          [⟨.commandDone 0x04 (laneFieldOf l) q .ok 0, 0⟩]) ∧
      modeSnapshot s t l

/-- The command record of a go word that is executed or held. -/
def commandOf (s : State) (code : BitVec 8) (f : BitVec 2) (q : BitVec 16) : CommandRecord := ⟨code, f, q, s.cmu.shadow⟩

/-- TABLE_COMMIT with a mask 1..3 executes in any mode: the RTU begins its scan and the command is the executing one. -/
def Obligations.TableCommitBeginsScan : Prop :=
  ∀ (s : State) (n : Nat) (u : BitVec 6) (f : BitVec 2) (q : BitVec 16), s.CommandReady 0 →
    1 ≤ s.cmu.shadow[1].toNat → s.cmu.shadow[1].toNat ≤ 3 →
    exec (.tableCommit n u f q) s = .next
      { s.pass n with
        ptu := { s.ptu with access := some (goAccess s 0x10 u f q) }
        cmu := { s.cmu with executing := some (commandOf s 0x10 f q) }
        rtu := { s.rtu with commit := .scanning s.cmu.shadow[0] (BitVec.ofNat 2 s.cmu.shadow[1].toNat) (s.now + n) } }

/-- VALVE_TEST accepted in OFF or HOLD: the valve enters BOOST for the duration, cut to max_on_us, with the parameters of the
active table latched; the other valves stay. -/
def Obligations.ValveTestOpensTheValve : Prop :=
  ∀ (s : State) (n : Nat) (u : BitVec 6) (l : LaneId) (q : BitVec 16) (v : Fin 64) (d : Nat) (tb : ActiveTable),
    s.CommandReady 1 → ((s.lane l).mode = .off ∨ (s.lane l).mode = .hold) → (s.lane l).table = some tb →
    (s.lane l).supplyGood = true → s.cmu.shadow[0].toNat = v.val → s.cmu.shadow[1].toNat = d → 1 ≤ d → d ≤ 65535 →
    ((s.lane l).valve v).phase = .closed → ((s.lane l).valve v).pending = none →
    ∃ t, exec (.valveTest n u (laneFieldOf l) q) s = .next t ∧
      t.lane l = { s.lane l with valves := (t.lane l).valves } ∧
      (t.lane l).valve v =
        { phase := .boost
            { source := .test (min d tb.block.maxOnUs), began := s.now + n, boostUs := tb.block.boostUs
              maxOnUs := tb.block.maxOnUs, sustainDuty := tb.block.sustainDuty, carrierUs := tb.block.carrierUs }
          pending := none } ∧
      (∀ w, w ≠ v → (t.lane l).valve w = (s.lane l).valve w) ∧ t.lane l.other = s.lane l.other ∧ t.rtu = s.rtu ∧
      t.cmu = s.cmu ∧ t.sram = s.sram ∧
      t.rwu = s.rwu.enqueue
        (.commandDone 0x20 (laneFieldOf l) q .ok (BitVec.ofNat 32 (min d tb.block.maxOnUs)))

/-- STATS_SNAPSHOT: snapshots of both lanes with cause COMMAND at one event, the common block waits, both owed marks are set,
and with flag 1 the 31 counters of both lanes are cleared after the copy. -/
def Obligations.StatsSnapshotCopiesAndClears : Prop :=
  ∀ (s : State) (n : Nat) (u : BitVec 6) (f : BitVec 2) (q : BitVec 16), s.CommandReady 0 → s.cmu.shadow[0].toNat ≤ 1 →
    ∃ t, exec (.statsSnapshot n u f q) s = .next t ∧
      t.cmu = { s.cmu with executing := some (commandOf s 0x30 f q) } ∧ t.rtu = s.rtu ∧ t.sram = s.sram ∧
      t.rwu.queue = s.rwu.queue ∧ t.rwu.commonWaiting.isSome = true ∧ t.rwu.droppedTotal = s.rwu.droppedTotal ∧
      ∀ l, (t.rwu.report l).owed = true ∧ (t.rwu.report l).generation = (s.rwu.report l).generation ∧
        (∃ p, (t.rwu.report l).snapshot = some p ∧ p.counters = (s.lane l).counters ∧ p.cause = .command ∧
          p.mode = (s.lane l).mode ∧ p.ln = (s.lane l).clock.ln ∧ p.period = (s.lane l).clock.pq / 16 ∧
          p.age = ((s.rwu.report l).snapshot.map Snapshot.age).getD (s.events + 1)) ∧
        t.lane l = { s.lane l with counters := if s.cmu.shadow[0].toNat = 1 then {} else (s.lane l).counters }

/-- CAPTURE_STATE: in OFF, HOLD or FAULT, or with the clock WAITING, the snapshot is taken at once; in RUN or DRAIN with a
running clock it waits, and CAPTURE_SNAPSHOT takes it at the lane's line boundary, which an event before it has reached
(`captureDue`, log entry 8). An intake event of the lane that hands a line is such a boundary, and no other event is one. An
event that changes the mode of a lane whose capture waits takes it before the lane's blocks act, and it shows the mode before
the change (log entry 11): at the loss of the clock with the clock in LOST, at HOLD after the tick that empties the lane (the
condition is evaluated at each of several ticks taken at once: log entry 13), or in DRAIN_CONDITION. The snapshot copies the
lane's state into the capture buffer; the lanes stay. Its age is the step's number (log entries 17 and 34). -/
def Obligations.CaptureTakenOrWaits : Prop :=
  (∀ (s : State) (n : Nat) (u : BitVec 6) (l : LaneId) (q : BitVec 16), s.CommandReady 0 →
    ((s.lane l).mode = .run ∨ (s.lane l).mode = .drain → (s.lane l).clock.state ≠ .waiting →
      exec (.captureState n u (laneFieldOf l) q) s = .next
        { s.pass n with
          ptu := { s.ptu with access := some (goAccess s 0x31 u (laneFieldOf l) q) }
          cmu := { s.cmu with executing := some (commandOf s 0x31 (laneFieldOf l) q), captureWait := some l } }) ∧
    (((s.lane l).mode = .off ∨ (s.lane l).mode = .hold ∨ (s.lane l).mode = .fault ∨ (s.lane l).clock.state = .waiting) →
      exec (.captureState n u (laneFieldOf l) q) s = .next
        { s.pass n with
          ptu := { s.ptu with access := some (goAccess s 0x31 u (laneFieldOf l) q) }
          cmu :=
            { s.cmu with
              executing := some (commandOf s 0x31 (laneFieldOf l) q), captureWait := none, captureDue := false }
          rwu := { s.rwu with capture := some (captureOf (s.lane l) l q (s.events + 1)) } })) ∧
  (∀ (s : State) (after : Nat),
    (∀ l r, s.cmu.captureWait = some l → s.cmu.captureDue = true → s.cmu.executing = some r →
      exec (.captureSnapshot after) s = .next
        { s.pass after with
          cmu := { s.cmu with captureWait := none, captureDue := false }
          rwu := { s.rwu with capture := some (captureOf (s.lane l) l r.seq s.events) } }) ∧
    ((s.cmu.captureWait = none ∨ s.cmu.captureDue = false) → exec (.captureSnapshot after) s = .next (s.pass after))) ∧
  (∀ (s t : State) (n : Nat) (l : LaneId) (r : CommandRecord), s.ModeSound → s.Settled → s.cmu.slot = none →
    s.cmu.captureWait = some l → s.cmu.executing = some r →
    (∀ c ∈ [Instr.entryLeavesFifo n, .triggerEdge n l, .coastDeadline n l, .syntheticLineStart n l], exec c s = .next t →
      (t.lane l).mode = (s.lane l).mode →
        t.cmu.captureWait = some l ∧
          (t.cmu.captureDue = true ↔ (t.lane l).counters.linesProcessed ≠ (s.lane l).counters.linesProcessed)) ∧
    (exec (.entryLeavesFifo n) s = .next t → (t.lane l).mode = (s.lane l).mode) ∧
    (∀ c ∈ [Instr.triggerEdge n l, .coastDeadline n l, .syntheticLineStart n l], exec c s = .next t →
      (t.lane l).mode ≠ (s.lane l).mode →
        t.cmu.captureWait = none ∧ t.cmu.captureDue = false ∧
        ((t.lane l).mode = .hold ∨ (t.lane l).mode = .fault) ∧
        ((t.lane l).mode = .fault →
          t.rwu.capture = some
            (captureOf { s.lane l with clock := { (s.lane l).clock with state := .lost, nextSynthetic := none } } l r.seq
              (s.events + 1))) ∧
        ((t.lane l).mode = .hold →
          ∃ (k : Nat) (x : Lane), (s.lane l).clock.k < k ∧ k ≤ 15 ∧
            x = ticksOf (s.now + n) (ticksLeft (s.lane l).clock k)
              { s.lane l with
                clock :=
                  if c = .coastDeadline n l then
                    { (s.lane l).clock with state := .coasting, coastDeadline := none, episode := 0 }
                  else (s.lane l).clock } ∧
            x.drained = true ∧ t.rwu.capture = some (captureOf x l r.seq (s.events + 1)))) ∧
    (∀ (v : Fin 64), ∀ c ∈ [Instr.tick n l, .boostTimer n l v, .carrierPeriod n l v, .maxOnGuard n l v, .recoveryEnd n l v,
        .testDurationEnd n l v, .supplyDrop n l, .supplyReturn n l],
      exec c s = .next t → t.cmu = s.cmu) ∧
    ∀ c ∈ [Instr.triggerEdge n l.other, .coastDeadline n l.other, .syntheticLineStart n l.other], exec c s = .next t →
      t.cmu.captureWait = some l ∧ t.cmu.captureDue = false ∧ t.rwu.capture = s.rwu.capture) ∧
  ∀ (s : State) (after : Nat) (l : LaneId) (r : CommandRecord), s.cmu.captureWait = some l → s.cmu.executing = some r →
    (s.lane l).mode = .drain → (s.lane l).drainDue = true →
    ∃ t, exec (.drainCondition after l) s = .next t ∧
      t.lane l = { s.lane l with mode := .hold, drainDue := false, assembly := none } ∧
      t.lane l.other = s.lane l.other ∧ t.rtu = s.rtu ∧ t.ptu = s.ptu ∧
      t.cmu = { s.cmu with captureWait := none, captureDue := false } ∧
      t.rwu.capture = some (captureOf (s.lane l) l r.seq s.events)

/-- The part after a go word that makes one COMMAND_DONE and changes nothing else. -/
def answered (s : State) (n : Nat) (code : BitVec 8) (u : BitVec 6) (f : BitVec 2) (q : BitVec 16) (status : CommandStatus)
    (detail : Nat) : State :=
  { s.pass n with
    ptu := { s.ptu with access := some (goAccess s code u f q) }
    rwu := s.rwu.enqueue (.commandDone code f q status (BitVec.ofNat 32 detail)) }

/-- What R146 judges before the mode: a code that is none of the eight, a lane field 2 or 3, an argument out of its range. Such
a go word is answered and changes nothing else. -/
def Obligations.BadCommandsOnlyAnswered : Prop :=
  ∀ (s : State) (n : Nat) (u : BitVec 6) (f : BitVec 2) (q : BitVec 16), s.CommandReady 1 →
    (∀ code, code ∉ [(0x01 : BitVec 8), 0x02, 0x03, 0x04, 0x10, 0x20, 0x30, 0x31] →
      exec (.badCommand n code u f q) s = .next (answered s n code u f q .badCommand code.toNat)) ∧
    (2 ≤ f.toNat →
      ∀ p ∈ [((0x01 : BitVec 8), Instr.laneStart n u f q), (0x02, .laneHold n u f q), (0x03, .laneResume n u f q),
          (0x04, .laneStop n u f q), (0x20, .valveTest n u f q), (0x31, .captureState n u f q)],
        exec p.2 s = .next (answered s n p.1 u f q .badArgument 7)) ∧
    (s.cmu.shadow[1].toNat = 0 ∨ 3 < s.cmu.shadow[1].toNat →
      exec (.tableCommit n u f q) s = .next (answered s n 0x10 u f q .badArgument 1)) ∧
    (1 < s.cmu.shadow[0].toNat → exec (.statsSnapshot n u f q) s = .next (answered s n 0x30 u f q .badArgument 0)) ∧
    (f.toNat < 2 →
      (65535 < s.cmu.shadow[0].toNat →
        exec (.laneStart n u f q) s = .next (answered s n 0x01 u f q .badArgument 0)) ∧
      (s.cmu.shadow[0].toNat ≤ 65535 → (s.cmu.shadow[1].toNat < 2500 ∨ 50000 < s.cmu.shadow[1].toNat) →
        exec (.laneStart n u f q) s = .next (answered s n 0x01 u f q .badArgument 1)) ∧
      (63 < s.cmu.shadow[0].toNat →
        exec (.valveTest n u f q) s = .next (answered s n 0x20 u f q .badArgument 0)) ∧
      (s.cmu.shadow[0].toNat ≤ 63 → (s.cmu.shadow[1].toNat = 0 ∨ 65535 < s.cmu.shadow[1].toNat) →
        exec (.valveTest n u f q) s = .next (answered s n 0x20 u f q .badArgument 1)))

/-- What the lane's state refuses, or finds done already: the command is answered WRONG_MODE with the mode, NO_TABLE, NO_SUPPLY,
VALVE_BUSY, or OK with the mode that stands, and changes nothing else. -/
def Obligations.RefusedCommandsOnlyAnswered : Prop :=
  ∀ (s : State) (n : Nat) (u : BitVec 6) (l : LaneId) (q : BitVec 16) (x : Lane), s.CommandReady 1 → s.lane l = x →
    ((x.mode = .off ∨ x.mode = .fault) →
      exec (.laneHold n u (laneFieldOf l) q) s =
        .next (answered s n 0x02 u (laneFieldOf l) q .wrongMode x.mode.code) ∧
      exec (.laneResume n u (laneFieldOf l) q) s =
        .next (answered s n 0x03 u (laneFieldOf l) q .wrongMode x.mode.code)) ∧
    ((x.mode = .drain ∨ x.mode = .hold) →
      exec (.laneHold n u (laneFieldOf l) q) s = .next (answered s n 0x02 u (laneFieldOf l) q .ok x.mode.code)) ∧
    (x.mode = .run → exec (.laneResume n u (laneFieldOf l) q) s = .next (answered s n 0x03 u (laneFieldOf l) q .ok 1)) ∧
    (x.mode = .off → exec (.laneStop n u (laneFieldOf l) q) s = .next (answered s n 0x04 u (laneFieldOf l) q .ok 0)) ∧
    (s.cmu.shadow[0].toNat ≤ 65535 → 2500 ≤ s.cmu.shadow[1].toNat → s.cmu.shadow[1].toNat ≤ 50000 →
      (x.mode ≠ .off →
        exec (.laneStart n u (laneFieldOf l) q) s =
          .next (answered s n 0x01 u (laneFieldOf l) q .wrongMode x.mode.code)) ∧
      (x.mode = .off → x.table = none →
        exec (.laneStart n u (laneFieldOf l) q) s = .next (answered s n 0x01 u (laneFieldOf l) q .noTable 0))) ∧
    ∀ v : Fin 64, s.cmu.shadow[0].toNat = v.val → 1 ≤ s.cmu.shadow[1].toNat → s.cmu.shadow[1].toNat ≤ 65535 →
      ((x.mode = .run ∨ x.mode = .drain ∨ x.mode = .fault) →
        exec (.valveTest n u (laneFieldOf l) q) s =
          .next (answered s n 0x20 u (laneFieldOf l) q .wrongMode x.mode.code)) ∧
      ((x.mode = .off ∨ x.mode = .hold) →
        (x.table = none →
          exec (.valveTest n u (laneFieldOf l) q) s = .next (answered s n 0x20 u (laneFieldOf l) q .noTable 0)) ∧
        (x.table ≠ none → x.supplyGood = false →
          exec (.valveTest n u (laneFieldOf l) q) s = .next (answered s n 0x20 u (laneFieldOf l) q .noSupply 0)) ∧
        (x.table ≠ none → x.supplyGood = true → ((x.valve v).phase ≠ .closed ∨ (x.valve v).pending ≠ none) →
          exec (.valveTest n u (laneFieldOf l) q) s = .next (answered s n 0x20 u (laneFieldOf l) q .valveBusy 0)))

/-- A go word that finds the CMU READY is executed with the arguments of the shadow. One that arrives while a command executes
is held in the empty pending slot, or supersedes the command held there. When an event completes the executing command, the
pending one is executed at the end of the same event, after a HOLD entry that the event owes and after a line start that the event
is (log entry 10); otherwise it stays pending. -/
def Obligations.GoWordsWaitOrSupersede : Prop :=
  (∀ (s : State) (n : Nat) (x : BitVec 8) (u : BitVec 6) (f : BitVec 2) (q : BitVec 16), s.PortReady →
    ∀ p ∈ goRows n x u f q,
      (s.cmu.executing = none →
        exec p.2 s = .next
          (({ s.pass n with ptu := { s.ptu with access := some (goAccess s p.1 u f q) } } : State).executeCommand
            (commandOf s p.1 f q))) ∧
      (s.cmu.executing ≠ none → s.cmu.slot = none →
        exec p.2 s = .next
          { s.pass n with
            ptu := { s.ptu with access := some (goAccess s p.1 u f q) }
            cmu := { s.cmu with slot := some (commandOf s p.1 f q) } }) ∧
      (∀ old, s.cmu.executing ≠ none → s.cmu.slot = some old →
        exec p.2 s = .next
          { s.pass n with
            ptu := { s.ptu with access := some (goAccess s p.1 u f q) }
            cmu := { s.cmu with slot := some (commandOf s p.1 f q) }
            rwu := s.rwu.enqueue (.commandDone old.code old.laneField old.seq .superseded (BitVec.ofNat 32 q.toNat)) })) ∧
  ∀ (s t : State) (n : Nat) (l : LaneId) (o : BitVec 10) (data : Word) (be : Enables) (p : CommandRecord), s.Settled →
    s.cmu.executing ≠ none → s.cmu.slot = some p →
    ∀ c ∈ [Instr.stagingWrite n o data be, .entryLeavesFifo n, .triggerEdge n l, .coastDeadline n l, .syntheticLineStart n l,
        .scanEnd n, .laneSwap n l, .partWriteDone n],
      exec c { s with cmu := { s.cmu with slot := none } } = .next t →
      exec c s = .next
        (if t.cmu.executing = none then ((t.settleDrain .lane0).settleDrain .lane1).executeCommand p
        else { t with cmu := { t.cmu with slot := some p } })

/-! ### Intake -/

/-- The part with the head of its observation FIFO gone. -/
def headGone (s : State) (after : Nat) (rest : List FifoEntry) : State :=
  { s.pass after with ptu := { s.ptu with fifo := rest } }

/-- An entry of the observation FIFO at a lane's slot word. -/
def entryAt (e : FifoEntry) (l : LaneId) (slot : BitVec 4) (w : Nat) : Prop :=
  e.offset.toNat = 0x20000 + 0x10000 * laneNumber l + 4096 * slot.toNat + w

/-- The assembly that a header opens. -/
def openedLine (x : Lane) (slot : BitVec 4) (h : BitVec 16) (n : LineNo) : Assembly :=
  { slot := slot, header := h, line := n, rearMode := decide (x.block.rearEnable = 1), front := .replicate 1024 none
    rear := .replicate 1024 none, loss := false }

/-- A header is judged by its distance d from LN: in NO_LINE of RUN or DRAIN an accepted one opens its line, after the swap that
waits for the lane (what a swap does: LaneSwapCopiesStagedBank; without one `swapLane` changes nothing), so that its rear mode
is the new table's; in HOLD it moves E; an AHEAD or STALE one is counted and recorded. -/
def Obligations.HeaderJudgedByDistance : Prop :=
  ∀ (s : State) (after : Nat) (l : LaneId) (slot : BitVec 4) (h : BitVec 16) (e : FifoEntry) (rest : List FifoEntry)
    (d : Nat) (n : LineNo), s.Settled → s.ptu.fifo = e :: rest → s.ptu.stall = none → entryAt e l slot 0 → e.be = 0xF →
    e.data = 0x4C4E#16 ++ h → (s.lane l).assembly = none →
    (s.swapWaiting l = true → s.cmu.slot = none) →
    d = ((s.lane l).clock.ln.toNat % 65536 + 65536 - h.toNat) % 65536 →
    n = (s.lane l).clock.ln - BitVec.ofNat 32 d →
    ((s.lane l).mode = .run ∨ (s.lane l).mode = .drain ∨ (s.lane l).mode = .hold) →
    (32768 ≤ d → exec (.entryLeavesFifo after) s = .next
      (((headGone s after rest).modLane l fun x => x.count fun c => { c with linesAhead := c.linesAhead + 1 }).record
        (.lineFault l .ahead slot h (s.lane l).clock.ln 0))) ∧
    (d < 32768 → (n - (s.lane l).expected).toInt < 0 → exec (.entryLeavesFifo after) s = .next
      (((headGone s after rest).modLane l fun x => x.count fun c => { c with linesStale := c.linesStale + 1 }).record
        (.lineFault l .stale slot h n 0))) ∧
    (d < 32768 → 0 ≤ (n - (s.lane l).expected).toInt →
      ((s.lane l).mode = .hold → exec (.entryLeavesFifo after) s = .next
        ((headGone s after rest).modLane l fun x => { x with expected := n + 1 })) ∧
      ((s.lane l).mode ≠ .hold → exec (.entryLeavesFifo after) s = .next
        (((headGone s after rest).swapLane l).modLane l fun x => { x with assembly := some (openedLine x slot h n) })))

/-- R4: a malformed header is a stray, counted in RUN, DRAIN and HOLD, and changes neither the assembly nor E; a full write
with the right marker is a header write whatever its number. -/
def Obligations.MalformedHeaderIsStray : Prop :=
  ∀ (s : State) (after : Nat) (l : LaneId) (slot : BitVec 4) (e : FifoEntry) (rest : List FifoEntry), s.Settled →
    s.ptu.fifo = e :: rest → s.ptu.stall = none → entryAt e l slot 0 →
    ((e.be ≠ 0xF ∨ e.data.extractLsb' 16 16 ≠ 0x4C4E#16) →
      ((s.lane l).mode = .run ∨ (s.lane l).mode = .drain ∨ (s.lane l).mode = .hold) →
      exec (.entryLeavesFifo after) s = .next
        ((headGone s after rest).modLane l fun x => x.count fun c => { c with strays := c.strays + 1 })) ∧
    (e.be = 0xF → e.data.extractLsb' 16 16 = 0x4C4E#16 → e.kind = .header)

/-- A pixel write in RUN or DRAIN: into the open slot, FRONT or with rear mode on, it stores the class of its column; every
other pixel write, and a partial one, is a stray. So is an end write that is partial, finds no line open or addresses another
slot than the open one: it is counted, and the open line, E and the object table stay. The class of a pixel is the colour map's
entry for its cells of brightness and yellowness, and STONE where that is not BG and the stone index lies in the band; each
feature lies in its range. -/
def Obligations.PixelStoredOrStray : Prop :=
  (∀ (s : State) (after : Nat) (l : LaneId) (slot : BitVec 4) (c : Nat) (e : FifoEntry) (rest : List FifoEntry) (rear : Bool),
    s.Settled → s.ptu.fifo = e :: rest → s.ptu.stall = none → c < 1024 →
    entryAt e l slot (if rear then 2048 + c else 1024 + c) →
    ((s.lane l).mode = .run ∨ (s.lane l).mode = .drain) →
    (∀ a, e.be = 0xF → (s.lane l).assembly = some a → a.slot = slot → (rear = true → a.rearMode = true) →
      exec (.entryLeavesFifo after) s = .next
        ((headGone s after rest).modLane l fun x =>
          { x with
            assembly := some
              (if rear then { a with rear := a.rear.setIfInBounds c (some (classify x.activeTable e.data)) }
              else { a with front := a.front.setIfInBounds c (some (classify x.activeTable e.data)) }) })) ∧
    ((e.be ≠ 0xF ∨ (s.lane l).assembly = none ∨
        ∃ a, (s.lane l).assembly = some a ∧ (a.slot ≠ slot ∨ (rear = true ∧ a.rearMode = false))) →
      exec (.entryLeavesFifo after) s = .next
        ((headGone s after rest).modLane l fun x => x.count fun k => { k with strays := k.strays + 1 }))) ∧
  (∀ (s : State) (after : Nat) (l : LaneId) (slot : BitVec 4) (e : FifoEntry) (rest : List FifoEntry), s.Settled →
    s.ptu.fifo = e :: rest → s.ptu.stall = none → entryAt e l slot 4095 →
    ((s.lane l).mode = .run ∨ (s.lane l).mode = .drain) →
    (e.be ≠ 0xF ∨ (s.lane l).assembly = none ∨ ∃ a, (s.lane l).assembly = some a ∧ a.slot ≠ slot) →
    exec (.entryLeavesFifo after) s = .next
      ((headGone s after rest).modLane l fun x => x.count fun k => { k with strays := k.strays + 1 })) ∧
  ∀ (tb : ActiveTable) (nir r g b : BitVec 8) (L Q cell code : Nat) (Yd : Int) (i : Fin 256),
    L = (r.toNat + 2 * g.toNat + b.toNat + 2) / 4 →
    Yd = max (-128) (min 127 ((((r.toNat + g.toNat) / 2 : Nat) : Int) - (b.toNat : Int))) →
    Q = min 255 (64 * nir.toNat / (L + 16)) → cell = L / 8 * 32 + (Yd + 128).toNat / 8 → i.val = cell / 4 →
    code = tb.colourMap[i].toNat / 2 ^ (8 * (cell % 4)) % 256 → code ≤ 6 →
    L ≤ 255 ∧ cell < 1024 ∧
      (classify tb (nir ++ r ++ g ++ b : BitVec 32)).code =
        if code ≠ 0 ∧ tb.grade.stoneQLo ≤ Q ∧ Q ≤ tb.grade.stoneQHi then 6 else code

/-- In OFF and FAULT every entry is dropped without being judged or counted; in HOLD every entry but those of word 0. -/
def Obligations.EntriesDroppedOutsideRuns : Prop :=
  ∀ (s : State) (after : Nat) (l : LaneId) (slot : BitVec 4) (w : Nat) (e : FifoEntry) (rest : List FifoEntry), s.Settled →
    s.ptu.fifo = e :: rest → s.ptu.stall = none → w < 4096 → entryAt e l slot w →
    ((s.lane l).mode = .off ∨ (s.lane l).mode = .fault ∨ ((s.lane l).mode = .hold ∧ w ≠ 0)) →
    exec (.entryLeavesFifo after) s = .next (headGone s after rest)

/-- The counts of a line handed to the OTU: lines processed, and in DRAIN the drain count. -/
def handed (x : Lane) : Lane :=
  { x with
    counters := { x.counters with linesProcessed := x.counters.linesProcessed + 1 }
    drainCount := if x.mode = .drain then min (x.drainCount + 1) 1023 else x.drainCount }

/-- A void line handed to a lane: it is counted, every object is closed in table order, CLUSTER set by its area, and graded. -/
def voidHanded (l : LaneId) (skipped : Bool) (x : Lane) : Lane × List Record :=
  let counted := (handed x).count fun c =>
    { c with linesVoid := c.linesVoid + 1, linesSkipped := if skipped then c.linesSkipped + 1 else c.linesSkipped }
  ({ counted with objects := [] } : Lane).gradeObjects l
    (x.objects.map fun o => { o with cluster := decide (x.grade.maxArea < o.area) })

/-- Skipped lines handed to a lane, one after another. -/
def skippedHanded (l : LaneId) : Nat → Lane → Lane × List Record
  | 0, x => (x, [])
  | n + 1, x =>
    let first := voidHanded l true x
    let others := skippedHanded l n first.1
    (others.1, first.2 ++ others.2)

/-- The part after an intake event that handed `n` lines of a lane and left it as `y` with these records made, from the part
`base`: the interval snapshot where the count has reached or passed a multiple of the interval, the line boundary of a capture
that waits, the drain condition. -/
def linesFinished (s base : State) (after : Nat) (l : LaneId) (n : Nat) (y : Lane) (recs : List Record)
    (rest : List FifoEntry) : State :=
  let w := recs.foldl Rwu.enqueue base.rwu
  let interval := 1024 * 4 ^ y.block.statsIntervalCode
  let drained : Lane := { y with drainDue := if y.mode = .drain then y.drained else y.drainDue }
  { base.setLane l drained with
    now := s.now + after, events := s.events + 1, ptu := { s.ptu with fifo := rest }
    cmu := { base.cmu with captureDue := base.cmu.captureDue || decide (base.cmu.captureWait = some l) }
    rwu :=
      if interval ≤ (s.lane l).counters.linesProcessed.toNat % interval + n then
        w.setReport l
          { w.report l with
            snapshot := some
              { counters := y.counters, mode := y.mode, clockState := y.clock.state, period := y.clock.pq / 16
                ln := y.clock.ln, cause := .interval
                age := ((w.report l).snapshot.map Snapshot.age).getD (s.events + 1) } }
      else w }

/-- A complete line is handed as a data line behind the skipped lines before it: E moves past it, the assembly is NO_LINE,
table, firings, records and counts are those of the skipped lines and then of the tracker's data line. Its views are merged with
the rear_offset from before a swap that the first skipped line takes (what a swap does: LaneSwapCopiesStagedBank). The note of a
swap that came while the line was open goes with it to the tracker; a swap before its own skipped lines is none (R36, log entry
35). The merged line has 1,024 classes: with rear mode on the more severe of the front class and the class of the paired rear
column, otherwise the front class. -/
def Obligations.CompleteLineHandedAsData : Prop :=
  (∀ (s base : State) (after : Nat) (l : LaneId) (a : Assembly) (e : FifoEntry) (rest : List FifoEntry) (skipped : Nat)
    (v w : Lane × List Record), s.Settled →
    s.cmu.slot = none → s.ptu.fifo = e :: rest → s.ptu.stall = none → entryAt e l a.slot 4095 → e.be = 0xF →
    ((s.lane l).mode = .run ∨ (s.lane l).mode = .drain) → (s.lane l).assembly = some a →
    (a.line - (s.lane l).expected).toInt = skipped →
    e.data = 0x4C4E#16 ++ a.header → a.expectedCount ≤ a.seen → a.loss = false →
    base = (if skipped = 0 then s.modLane l fun x => { x with assembly := none }
      else (s.modLane l fun x => { x with assembly := none }).swapLane l) →
    v = skippedHanded l skipped (base.lane l) →
    w = (handed v.1).dataLine l a.line a.mixed (mergeViews a (s.lane l).block.rearOffset) →
    exec (.entryLeavesFifo after) s = .next
      (linesFinished s base after l (skipped + 1) { w.1 with expected := a.line + 1 } (v.2 ++ w.2) rest)) ∧
  ∀ (a : Assembly) (offset : Int),
    (mergeViews a offset).length = 1024 ∧
    ∀ (c : Fin 1024) (m front : PixelClass), (mergeViews a offset)[c.val]? = some m → front = a.front[c].getD .bg →
      (a.rearMode = false → m = front) ∧
      (a.rearMode = true → ((∀ c' : Fin 1024, (c'.val : Int) ≠ 1023 - (c.val : Int) + offset) → m = front) ∧
        ∀ c' : Fin 1024, (c'.val : Int) = 1023 - (c.val : Int) + offset →
          m.code = max front.code (a.rear[c'].getD .bg).code)

/-- A damaged line is handed as a void line behind the skipped ones, after the swap that waits for the lane: each of the lines
E..n is processed once, the table is empty, the damage is recorded first with the first reason that applies. -/
def Obligations.DamagedLineHandedAsVoid : Prop :=
  ∀ (s : State) (after : Nat) (l : LaneId) (a : Assembly) (e : FifoEntry) (rest : List FifoEntry) (skipped : Nat)
    (reason : LineFaultReason), s.Settled →
    s.cmu.slot = none → s.ptu.fifo = e :: rest → s.ptu.stall = none → entryAt e l a.slot 4095 →
    e.be = 0xF → ((s.lane l).mode = .run ∨ (s.lane l).mode = .drain) → (s.lane l).assembly = some a →
    (a.line - (s.lane l).expected).toInt = skipped →
    (e.data ≠ 0x4C4E#16 ++ a.header ∧ reason = .endMismatch ∨
      e.data = 0x4C4E#16 ++ a.header ∧ a.seen < a.expectedCount ∧ reason = .incomplete ∨
      e.data = 0x4C4E#16 ++ a.header ∧ a.expectedCount ≤ a.seen ∧ a.loss = true ∧ reason = .loss) →
    (∀ (base : State) (v w : Lane × List Record),
      base = ((s.modLane l fun x =>
        ({ x with assembly := none } : Lane).count fun c => { c with linesDamaged := c.linesDamaged + 1 }).record
          (.lineFault l reason a.slot a.header a.line a.seen)).swapLane l →
      v = skippedHanded l skipped (base.lane l) → w = voidHanded l false v.1 →
      exec (.entryLeavesFifo after) s = .next
        (linesFinished s base after l (skipped + 1) { w.1 with expected := a.line + 1 } (v.2 ++ w.2) rest)) ∧
    (s.rwu.queue.length < 24 →
    ∃ t more, exec (.entryLeavesFifo after) s = .next t ∧ (t.lane l).expected = a.line + 1 ∧ (t.lane l).assembly = none ∧
      (t.lane l).objects = [] ∧
      (t.lane l).counters.linesProcessed = (s.lane l).counters.linesProcessed + BitVec.ofNat 32 (skipped + 1) ∧
      (t.lane l).counters.linesVoid = (s.lane l).counters.linesVoid + BitVec.ofNat 32 (skipped + 1) ∧
      (t.lane l).counters.linesSkipped = (s.lane l).counters.linesSkipped + BitVec.ofNat 32 skipped ∧
      (t.lane l).counters.linesDamaged = (s.lane l).counters.linesDamaged + 1 ∧
      t.rwu.queue = s.rwu.queue ++ ⟨.lineFault l reason a.slot a.header a.line a.seen, s.rwu.dropCount⟩ :: more)

/-- A header that finds a line open damages it with RESTART: it is counted and recorded, nothing is handed and E stays; the
header is then judged as in NO_LINE. -/
def Obligations.RestartDamagesOpenLine : Prop :=
  ∀ (s : State) (after : Nat) (l : LaneId) (slot : BitVec 4) (h : BitVec 16) (a : Assembly) (e : FifoEntry)
    (rest : List FifoEntry) (damaged : State), s.Settled → s.ptu.fifo = e :: rest → s.ptu.stall = none →
    entryAt e l slot 0 → e.be = 0xF → e.data = 0x4C4E#16 ++ h → ((s.lane l).mode = .run ∨ (s.lane l).mode = .drain) →
    (s.lane l).assembly = some a → s.cmu.slot = none →
    damaged = (s.modLane l fun x =>
      ({ x with assembly := none } : Lane).count fun c => { c with linesDamaged := c.linesDamaged + 1 }).record
        (.lineFault l .restart a.slot a.header a.line a.seen) →
    exec (.entryLeavesFifo after) s = exec (.entryLeavesFifo after) damaged

/-- The end of a stall: at 200 reference clocks the observation is lost, counted and marked on an open line; the departure of
an entry admits the held write to the freed place. Sent before its time the limit has no effect (log entry 2). -/
def Obligations.StallEndsInLossOrAdmission : Prop :=
  ∀ (s : State) (after : Nat) (h : Stall) (l : LaneId), s.Settled → s.ptu.stall = some h → ringLane h.entry.offset = l →
    (h.since + 200 ≤ s.now + after →
      exec (.stallLimit after) s = .next
        (({ s.pass after with ptu := { s.ptu with stall := none } } : State).modLane l fun x =>
          { x with
            assembly := x.assembly.map fun a => { a with loss := true }
            counters := { x.counters with lostWrites := x.counters.lostWrites + 1 } })) ∧
    (s.now + after < h.since + 200 → exec (.stallLimit after) s = .next (s.pass after)) ∧
    (∀ e rest, s.ptu.fifo = e :: rest →
      ∃ t, exec (.entryLeavesFifo after) s = .next t ∧ t.ptu = { s.ptu with fifo := rest ++ [h.entry], stall := none } ∧
        ∀ m, (t.lane m).counters.lostWrites = (s.lane m).counters.lostWrites ∨ s.cmu.slot ≠ none)

/-- The damage that expiry does to a line open at E: it is counted and recorded LATE_END, and the assembly is NO_LINE. An open line
with a later number is left alone. -/
def lateEnd (l : LaneId) (x : Lane) : Lane × List Record :=
  match x.assembly with
  | some a =>
    if a.line = x.expected then
      ({ x with assembly := none, counters := { x.counters with linesDamaged := x.counters.linesDamaged + 1 } },
        [.lineFault l .lateEnd a.slot a.header a.line a.seen])
    else (x, [])
  | none => (x, [])

/-- The lines E, E + 1, … expired one after another: the damage of a line open at E, the void line, E past it. -/
def expiredLines (l : LaneId) : Nat → Lane → Lane × List Record
  | 0, x => (x, [])
  | n + 1, x =>
    let late := lateEnd l x
    let void := voidHanded l false late.1
    let others := expiredLines l n { void.1 with expected := x.expected + 1 }
    (others.1, late.2 ++ void.2 ++ others.2)

/-- What a line start does at the LIU, with d = LN − E. In RUN and DRAIN nothing while d is below data_wait; from data_wait on line
E is damaged LATE_END if it is open, the swap that waits for the lane is taken (what a swap does: LaneSwapCopiesStagedBank), line E
is handed as a void line and E passes it, and so on for as many lines as bring LN − E below the data_wait that then stands, each
once. In HOLD E alone moves, no further than needed; in OFF and FAULT nothing happens. The clock stays, and LN − E is below
data_wait afterwards. -/
def Obligations.ExpiryKeepsLinesWithinWait : Prop :=
  (∀ (s : State) (l : LaneId), (s.lane l).mode = .run ∨ (s.lane l).mode = .drain ∨ (s.lane l).mode = .hold →
    ((s.intakeLineStart l).lane l).clock = (s.lane l).clock ∧
      (((s.intakeLineStart l).lane l).clock.ln - ((s.intakeLineStart l).lane l).expected).toInt <
        ((s.intakeLineStart l).lane l).block.dataWait) ∧
  (∀ (s : State) (l : LaneId) (d : Int), d = ((s.lane l).clock.ln - (s.lane l).expected).toInt →
    ((s.lane l).mode = .run ∨ (s.lane l).mode = .drain) →
    (d < (s.lane l).block.dataWait → s.intakeLineStart l = s) ∧
    ∀ (late v : Lane × List Record) (base : State) (n : Nat), ((s.lane l).block.dataWait : Int) ≤ d →
      late = lateEnd l (s.lane l) → base = ((s.setLane l late.1).records late.2).swapLane l →
      n = max 1 (d - (base.lane l).block.dataWait + 1).toNat → v = expiredLines l n (base.lane l) →
      s.intakeLineStart l = (base.setLane l v.1).records v.2 ∧ v.1.expected = (s.lane l).expected + BitVec.ofNat 32 n ∧
        (v.1.counters.linesVoid = (s.lane l).counters.linesVoid + BitVec.ofNat 32 n ∧
          v.1.counters.linesSkipped = (s.lane l).counters.linesSkipped ∧
          v.1.counters.linesProcessed = (s.lane l).counters.linesProcessed + BitVec.ofNat 32 n) ∧
        v.1.objects = []) ∧
  ∀ (s : State) (l : LaneId) (d : Int), d = ((s.lane l).clock.ln - (s.lane l).expected).toInt →
    ((s.lane l).mode = .hold →
      s.intakeLineStart l = s.setLane l
        { s.lane l with
          expected := (s.lane l).expected + BitVec.ofNat 32 (d - (s.lane l).block.dataWait + 1).toNat }) ∧
    ((s.lane l).mode = .off ∨ (s.lane l).mode = .fault → s.intakeLineStart l = s)

/-! ### Pixels, runs, spans -/

/-- R24: the brightness of a pixel, and that it lies in 0..255 for every pixel. -/
def Obligations.BrightnessFormula : Prop :=
  ∀ w : Word, brightness (pixelRed w) (pixelGreen w) (pixelBlue w) =
      (pixelRed w + 2 * pixelGreen w + pixelBlue w + 2) / 4 ∧
    brightness (pixelRed w) (pixelGreen w) (pixelBlue w) ≤ 255

/-- The classes that a column can add to an object, each with its count. -/
def countOf : List (PixelClass × (ClassCounts → Nat)) :=
  [(.sound, ClassCounts.sound), (.chalk, ClassCounts.chalk), (.yellow, ClassCounts.yellow), (.dark, ClassCounts.dark),
    (.foreign, ClassCounts.foreign), (.stone, ClassCounts.stone)]

/-- Objects in table order: each span lies before the next one's, and none is empty (R40). -/
def inTableOrder (os : List OpenObject) : Prop :=
  os.Pairwise (fun a b => a.spanEnd < b.spanStart) ∧ ∀ o ∈ os, o.spanStart ≤ o.spanEnd

/-- A run touches an object: it shares a column with the object's span widened by one column on either side (R44). -/
def touching (q : LineRun) (o : OpenObject) : Prop :=
  ∃ c : Int, (q.first : Int) ≤ c ∧ c ≤ q.last ∧ (o.spanStart : Int) - 1 ≤ c ∧ c ≤ (o.spanEnd : Int) + 1

/-- Touching between the objects of a table and the runs of a line, either way. -/
def touchStep (objects : List OpenObject) (runs : List LineRun) : OpenObject ⊕ LineRun → OpenObject ⊕ LineRun → Prop
  | .inl o, .inr q => o ∈ objects ∧ q ∈ runs ∧ touching q o
  | .inr q, .inl o => o ∈ objects ∧ q ∈ runs ∧ touching q o
  | .inl _, .inl _ => False
  | .inr _, .inr _ => False

/-- The group of an object: the objects, in table order, and the runs, left to right, that touching links to it (R44). -/
def groupOf (objects : List OpenObject) (runs : List LineRun) (o : OpenObject) (os : List OpenObject) (qs : List LineRun) : Prop :=
  os.Sublist objects ∧ qs.Sublist runs ∧
    (∀ p ∈ objects, p ∈ os ↔ Relation.ReflTransGen (touchStep objects runs) (.inl o) (.inl p)) ∧
    ∀ q ∈ runs, q ∈ qs ↔ Relation.ReflTransGen (touchStep objects runs) (.inl o) (.inr q)

/-- What becomes of a group of objects and runs in a line: its objects merged into the leftmost, then extended by its runs (R46,
R47). The earliest first_line is by the signed difference (log entry 24). -/
def groupBecomes (line : LineNo) (os : List OpenObject) (qs : List LineRun) (m : OpenObject) : Prop :=
  ∃ o q r, os.head? = some o ∧ qs.head? = some q ∧ qs.getLast? = some r ∧
    m.slotId = o.slotId ∧ m.spanStart = q.first ∧ m.spanEnd = r.last ∧ m.lastLine = line ∧
    m.area = (os.map OpenObject.area).sum + (qs.map fun q => q.last - q.first + 1).sum ∧
    (∀ p ∈ countOf, p.2 m.counts = (os.map fun o => p.2 o.counts).sum + (qs.map fun q => p.2 q.counts).sum) ∧
    (m.firstLine ∈ os.map OpenObject.firstLine ∧ ∀ p ∈ os, 0 ≤ (p.firstLine - m.firstLine).toInt) ∧
    (m.cmin ∈ q.first :: os.map OpenObject.cmin ∧ ∀ c ∈ q.first :: os.map OpenObject.cmin, m.cmin ≤ c) ∧
    (m.cmax ∈ r.last :: os.map OpenObject.cmax ∧ ∀ c ∈ r.last :: os.map OpenObject.cmax, c ≤ m.cmax) ∧
    m.mixed = os.any OpenObject.mixed ∧ m.merged = (o.merged || decide (2 ≤ os.length)) ∧ m.long = o.long ∧
    m.cluster = o.cluster

/-- A new object from a run, in the lowest-numbered place that no object of a table has, its flags clear (R48). -/
def newFrom (line : LineNo) (q : LineRun) (table : List OpenObject) (n : OpenObject) : Prop :=
  n = { slotId := n.slotId, firstLine := line, lastLine := line, spanStart := q.first, spanEnd := q.last, cmin := q.first
        cmax := q.last, area := q.last - q.first + 1, counts := q.counts, mixed := false, merged := false, long := false
        cluster := false } ∧
    n.slotId < 48 ∧ n.slotId ∉ table.map OpenObject.slotId ∧ ∀ j < n.slotId, j ∈ table.map OpenObject.slotId

/-- An object as it is handed at its closure: CLUSTER by its area (R45, R52, R54). -/
def closing (g : GradeBlock) (o : OpenObject) : OpenObject := { o with cluster := decide (g.maxArea < o.area) }

/-- Objects handed to the GDU one after another. -/
def gradedInTurn (l : LaneId) : List OpenObject → Lane → Lane × List Record
  | [], x => (x, [])
  | o :: os, x =>
    let first := x.gradeObject l o
    let others := gradedInTurn l os first.1
    (others.1, first.2 ++ others.2)

/-- The runs of a line are separated by at least one BG column, a column lies in a run exactly when it is not BG, and a run
counts its columns by class. What a data line does to a table in table order, with its places distinct and its first lines
within half the range of line numbers behind the line: an object that no run touches is closed; each group of objects and runs
linked by touching becomes one object in the leftmost one's place; then the runs that touch no object become new objects left to
right, each in the lowest free place, until no place is free, and the rest are untracked; then the objects of max_lines lines or
more are force-closed; the table stays in table order. For a line that was open across a swap the objects it has formed are then
marked MIXED (R36; new ones start clear: log entry 35). Its hand-overs come in the order closed objects, untracked runs,
force-closed objects, each in order. -/
def Obligations.RunsAreTheMaximalStretches : Prop :=
  (∀ cs : List PixelClass,
    (runsOf cs).Pairwise (fun a b => a.last + 1 < b.first) ∧ (∀ r ∈ runsOf cs, r.first ≤ r.last ∧ r.last < cs.length) ∧
    (∀ (c : Nat) (h : c < cs.length), cs[c] ≠ .bg ↔ ∃ r ∈ runsOf cs, r.first ≤ c ∧ c ≤ r.last) ∧
    ∀ r ∈ runsOf cs, ∀ p ∈ countOf, p.2 r.counts = ((cs.drop r.first).take (r.last - r.first + 1)).count p.1) ∧
  (∀ (g : GradeBlock) (line : LineNo) (cs : List PixelClass) (objects : List OpenObject) (runs : List LineRun) (r : LineResult)
    (untouched : OpenObject → Bool) (alone : LineRun → Bool),
    inTableOrder objects → (objects.map OpenObject.slotId).Nodup →
    (∀ o ∈ objects, o.slotId < 48 ∧ (line - o.firstLine).toNat < 2147483648) → runs = runsOf cs →
    (∀ o, untouched o = true ↔ ∀ q ∈ runs, ¬touching q o) → (∀ q, alone q = true ↔ ∀ o ∈ objects, ¬touching q o) →
    r = trackLine g line cs objects →
    r.closed = (objects.filter untouched).map (closing g) ∧
    ∃ kept fresh table : List OpenObject,
      inTableOrder kept ∧
      (∀ m, m ∈ kept ↔
        ∃ o os qs, o ∈ objects ∧ untouched o = false ∧ groupOf objects runs o os qs ∧ groupBecomes line os qs m) ∧
      fresh.length = min (runs.filter alone).length (48 - kept.length) ∧
      (∀ (i : Nat) (q : LineRun) (n : OpenObject), (runs.filter alone)[i]? = some q → fresh[i]? = some n →
        newFrom line q (kept ++ fresh.take i) n) ∧
      r.untracked = (runs.filter alone).drop fresh.length ∧
      table.Perm (kept ++ fresh) ∧ inTableOrder table ∧
      r.table = table.filter (fun o => decide ((o.lastLine - o.firstLine + 1).toNat < g.maxLines)) ∧
      r.forced = (table.filter fun o => decide (g.maxLines ≤ (o.lastLine - o.firstLine + 1).toNat)).map
        fun o => { closing g o with long := true }) ∧
  ∀ (x : Lane) (l : LaneId) (line : LineNo) (mixed : Bool) (cs : List PixelClass) (r : LineResult)
    (mark : OpenObject → OpenObject) (a b c : Lane × List Record),
    r = trackLine x.grade line cs x.objects → mark = (fun o => if mixed then { o with mixed := true } else o) →
    a = gradedInTurn l r.closed { x with objects := r.table.map mark } →
    b = a.1.overflowRuns l line r.untracked → c = gradedInTurn l (r.forced.map mark) b.1 →
    x.dataLine l line mixed cs = (c.1, a.2 ++ b.2 ++ c.2)

/-- The ratio test of R63. -/
def ratioMet (least ratio count area : Nat) : Prop := least ≠ 0 ∧ least ≤ count ∧ ratio * area ≤ 1024 * count

/-- R62 and R63, with the outcomes of R64: the checks in their order; the first that decides gives the outcome. -/
def Obligations.DecisionsInOrder : Prop :=
  ∀ (g : GradeBlock) (o : OpenObject), g.longPolicy ≤ 2 →
    (g.stoneMin ≠ 0 ∧ g.stoneMin ≤ o.counts.stone → decideObject g o = .reject .stone) ∧
    (¬(g.stoneMin ≠ 0 ∧ g.stoneMin ≤ o.counts.stone) →
      (g.foreignMin ≠ 0 ∧ g.foreignMin ≤ o.counts.foreign → decideObject g o = .reject .foreign) ∧
      (¬(g.foreignMin ≠ 0 ∧ g.foreignMin ≤ o.counts.foreign) →
        (o.long = true → g.longPolicy = 0 → decideObject g o = .accept) ∧
        (o.long = true → g.longPolicy = 1 → decideObject g o = .reject .long) ∧
        ((o.long = false ∨ g.longPolicy = 2) →
          (o.area < g.minArea → decideObject g o = .fragment) ∧
          (g.minArea ≤ o.area →
            (ratioMet g.darkMin g.darkRatio o.counts.dark o.area → decideObject g o = .reject .dark) ∧
            (¬ratioMet g.darkMin g.darkRatio o.counts.dark o.area →
              (ratioMet g.yellowMin g.yellowRatio o.counts.yellow o.area → decideObject g o = .reject .yellow) ∧
              (¬ratioMet g.yellowMin g.yellowRatio o.counts.yellow o.area →
                (ratioMet g.chalkMin g.chalkRatio o.counts.chalk o.area → decideObject g o = .reject .chalk) ∧
                (¬ratioMet g.chalkMin g.chalkRatio o.counts.chalk o.area → decideObject g o = .accept)))))))

/-- Whether a valve covers a column: the largest valve whose boundary is not above it. -/
def covers (t : ActiveTable) (v : Fin 64) (c : Nat) : Prop :=
  t.boundaries[v] ≤ c ∧ ∀ u : Fin 64, v < u → c < t.boundaries[u]

/-- Firings of the valves given, placed one after another, with the answers. -/
def placedInTurn (n : Firing) : List (Fin 64) → Lane → Lane × List PlaceAnswer
  | [], x => (x, [])
  | v :: vs, x =>
    let first := x.place { n with valve := v }
    let others := placedInTurn n vs first.1
    (others.1, first.2 :: others.2)

/-- The reason of the first miss among the answers. -/
def firstMissed : List PlaceAnswer → MissReason
  | [] => .noMiss
  | .scheduled :: as => firstMissed as
  | .missed r :: _ => r

/-- What a reject comes to. The valves: those that cover the columns from lo to hi, or the middle four of more than four, or
none for an object left of valve 0. The window: open and close from the lines, flight delay, lead and lag, clamped to
max_on_ticks; the lateness test leaves it, truncates it to at least four ticks, or calls it late. The firings: one for each
valve in ascending order, each answered before the next. The record: the object's fields and what became of its firings. An
untracked run is counted, under EJECT taken as a reject without decision or record, and its line makes one OVERFLOW_RUN. -/
def Obligations.RejectSpanAndWindow : Prop :=
  (∀ (t : ActiveTable) (cmin cmax : Nat) (p : ValveSpan), cmin ≤ cmax → valveSpan t cmin cmax = some p →
    1 ≤ p.planned ∧ p.planned ≤ 4 ∧ p.first + p.planned ≤ 64 ∧ (p.wide = true → p.planned = 4)) ∧
  (∀ (t : ActiveTable) (cmin cmax lo hi : Nat), (∀ u v : Fin 64, u < v → t.boundaries[u] < t.boundaries[v]) →
    cmin ≤ cmax → cmax ≤ 1023 → (lo : Int) = max ((cmin : Int) - t.block.margin) t.boundaries[0] →
    hi = min (cmax + t.block.margin) 1023 →
    (hi < t.boundaries[0] → valveSpan t cmin cmax = none) ∧
    ∀ vlo vhi : Fin 64, t.boundaries[0] ≤ hi → covers t vlo lo → covers t vhi hi →
      vlo ≤ vhi ∧
        (vhi.val - vlo.val + 1 ≤ 4 → valveSpan t cmin cmax = some ⟨vlo.val, vhi.val - vlo.val + 1, false⟩) ∧
        (4 < vhi.val - vlo.val + 1 →
          valveSpan t cmin cmax = some ⟨vlo.val + (vhi.val - vlo.val + 1 - 4) / 2, 4, true⟩)) ∧
  (∀ (x : Lane) (a b : LineNo) (o c : TickTime) (most : Nat),
    o = BitVec.ofNat 36 (a.toNat * 16) + BitVec.ofNat 36 x.block.flightDelay - BitVec.ofNat 36 x.block.lead →
    c = BitVec.ofNat 36 ((b.toNat + 1) * 16) + BitVec.ofNat 36 x.block.flightDelay + BitVec.ofNat 36 x.block.lag →
    most = x.block.maxOnUs * 800 / (x.clock.pq / 16) →
    ((c - o).toInt ≤ most → x.window a b = ⟨o, c, false⟩) ∧
    ((most : Int) < (c - o).toInt → x.window a b = ⟨o, o + BitVec.ofNat 36 most, true⟩)) ∧
  (∀ (tnow : TickTime) (w : Window),
    ((tnow - w.opens).toInt < 0 → lateness tnow w = .stands) ∧
    (0 ≤ (tnow - w.opens).toInt → 4 ≤ (w.closes - (tnow + 1)).toInt → lateness tnow w = .truncated) ∧
    (0 ≤ (tnow - w.opens).toInt → (w.closes - (tnow + 1)).toInt < 4 → lateness tnow w = .late)) ∧
  (∀ (x : Lane) (cmin cmax : Nat) (a b : LineNo) (w : Window) (tnow : TickTime), cmin ≤ cmax → w = x.window a b →
    tnow = tickTime x.clock.ln x.clock.k →
    (valveSpan x.activeTable cmin cmax = none →
      x.ejectSpan cmin cmax a b = (x.countMissed .noValve 1, ⟨0, 0, false, w, false, ⟨0, 0, .noValve⟩⟩)) ∧
    ∀ p, valveSpan x.activeTable cmin cmax = some p →
      (lateness tnow w = .late →
        x.ejectSpan cmin cmax a b =
          (x.countMissed .late p.planned, ⟨p.planned, p.first, p.wide, w, false, ⟨0, p.planned, .late⟩⟩)) ∧
      ∀ (o : TickTime) (cut : Bool) (vs : List (Fin 64)) (r : Lane × List PlaceAnswer),
        (lateness tnow w = .stands ∧ o = w.opens ∧ cut = false ∨
          lateness tnow w = .truncated ∧ o = tnow + 1 ∧ cut = true) →
        vs.map Fin.val = (List.range p.planned).map (p.first + ·) →
        r = placedInTurn
          { valve := 0, openTick := o, closeTick := w.closes, tag := a, truncated := cut, clamped := w.clamped } vs x →
        x.ejectSpan cmin cmax a b =
          (r.1, ⟨p.planned, p.first, p.wide, { w with opens := o }, cut,
            ⟨r.2.count .scheduled, p.planned - r.2.count .scheduled, firstMissed r.2⟩⟩)) ∧
  (∀ (x y : Lane) (l : LaneId) (o : OpenObject),
    y = (x.count fun c => ({ c with objectsClosed := c.objectsClosed + 1 } : Counters).decision (decideObject x.grade o)) →
    ((decideObject x.grade o = .accept ∨ decideObject x.grade o = .fragment) → x.gradeObject l o = (y, [])) ∧
    ∀ reason r, decideObject x.grade o = .reject reason → r = y.ejectSpan o.cmin o.cmax o.firstLine o.lastLine →
      x.gradeObject l o =
        (r.1, [.objectRejected l
          { firstLine := o.firstLine, lastLine := o.lastLine, cmin := o.cmin, cmax := o.cmax, area := o.area
            reason := reason, mixed := o.mixed, merged := o.merged, long := o.long, cluster := o.cluster
            wide := r.2.wide, clamped := r.2.window.clamped, truncated := r.2.truncated, planned := r.2.planned
            firstValve := r.2.firstValve, scheduled := r.2.tally.scheduled, missed := r.2.tally.missed
            firstMiss := r.2.tally.firstMiss, openTick := r.2.window.opens }])) ∧
  ∀ (x y : Lane) (l : LaneId) (line : LineNo) (first last : LineRun) (runs : List LineRun) (columns : Nat),
    x.overflowRuns l line [] = (x, []) ∧
    (runs.head? = some first → runs.getLast? = some last → columns = (runs.map fun q => q.last - q.first + 1).sum →
      y = (x.count fun c => { c with untrackedRuns := c.untrackedRuns + BitVec.ofNat 32 runs.length }) →
      (x.grade.overflowPolicy ≠ 1 →
        x.overflowRuns l line runs =
          (y, [.overflowRun l line false runs.length first.first last.last columns])) ∧
      (x.grade.overflowPolicy = 1 →
        x.overflowRuns l line runs =
          (runs.foldl (fun z q => (z.ejectSpan q.first q.last line line).1) y,
            [.overflowRun l line true runs.length first.first last.last columns])))

/-- A firing is placed as a new entry of the queue, or finds the queue full. -/
def placedAsEntry (x : Lane) (n entry : Firing) : Prop :=
  (x.firings.length < 96 →
    x.place n = ({ x with firings := insertFiring { entry with joined := 0 } x.firings }, .scheduled)) ∧
  (96 ≤ x.firings.length → x.place n = (x.countMissed .queueFull 1, .missed .queueFull))

/-- A firing that opens within the reach of a window joins it, unless fewer than four ticks would be left of it; past the rest
of the window it is placed as a new entry. -/
def joinedOrRested (x : Lane) (w n : Firing) (put : Firing → Lane) : Prop :=
  (0 < (n.openTick - (w.closeTick + BitVec.ofNat 36 x.recTicks)).toInt → placedAsEntry x n n) ∧
  ∀ raw c, raw = tickMax w.closeTick n.closeTick →
    c = (if (w.openTick + BitVec.ofNat 36 x.maxOnTicks - raw).toInt < 0 then
      tickMax w.closeTick (w.openTick + BitVec.ofNat 36 x.maxOnTicks) else raw) →
    (n.openTick - (w.closeTick + BitVec.ofNat 36 x.recTicks)).toInt ≤ 0 →
    ((c - (n.openTick + 4)).toInt < 0 → x.place n = (x.countMissed .valveBusy 1, .missed .valveBusy)) ∧
    (0 ≤ (c - (n.openTick + 4)).toInt →
      x.place n =
        (put { w with closeTick := c, joined := min (w.joined + 1) 255, clamped := w.clamped || c != raw }, .scheduled))

/-- The earliest tick at which a valve may open under its last queued entry, given the entry before that one. -/
def earliestOpen (x : Lane) (v : Fin 64) (before : Option Firing) : TickTime :=
  match before, (x.valve v).pending, (x.valve v).firingOpen, (x.valve v).phase with
  | some f, _, _, _ => f.closeTick + BitVec.ofNat 36 (x.recTicks + 1)
  | none, some f, _, _ => f.closeTick + BitVec.ofNat 36 (x.recTicks + 1)
  | none, none, some f, _ => f.closeTick + BitVec.ofNat 36 (x.recTicks + 1)
  | none, none, none, .recover _ _ (some e) => e
  | none, none, none, _ => tickTime x.clock.ln x.clock.k + 1

/-- The placement of a firing against its valve's latest window: the last queued entry, else the pending entry, else the
current opening from a firing, else the last finished opening, else none. It joins the window within its reach, also a queued
one that it makes open earlier, is delayed to the end of a recovery, becomes an entry at its place in queue order, or is
missed. -/
def Obligations.PlacementJoinsOrAdds : Prop :=
  (∀ (x : Lane) (n : Firing) (v : Fin 64), v = n.valve →
    (entriesOf v x.firings = [] → (x.valve v).pending = none → (x.valve v).firingOpen = none →
      ((∀ b r e, (x.valve v).phase ≠ .recover b r (some e)) → placedAsEntry x n n) ∧
      ∀ b r e, (x.valve v).phase = .recover b r (some e) →
        (0 ≤ (n.openTick - e).toInt → placedAsEntry x n n) ∧
        ((n.openTick - e).toInt < 0 → (n.closeTick - (e + 4)).toInt < 0 →
          x.place n = (x.countMissed .valveBusy 1, .missed .valveBusy)) ∧
        ((n.openTick - e).toInt < 0 → 0 ≤ (n.closeTick - (e + 4)).toInt →
          placedAsEntry x n { n with openTick := e, delayed := true })) ∧
    (entriesOf v x.firings = [] → (x.valve v).pending = none → ∀ w o, o.source = .firing w →
      0 ≤ (n.openTick - w.openTick).toInt →
      ((x.valve v).phase = .boost o →
        joinedOrRested x w n fun w' =>
          x.setValve v { x.valve v with phase := .boost { o with source := .firing w' } }) ∧
      ∀ p d, (x.valve v).phase = .sustain o p d →
        joinedOrRested x w n fun w' =>
          x.setValve v { x.valve v with phase := .sustain { o with source := .firing w' } p d }) ∧
    (entriesOf v x.firings = [] → ∀ w, (x.valve v).pending = some w → 0 ≤ (n.openTick - w.openTick).toInt →
      joinedOrRested x w n fun w' => x.setValve v { x.valve v with pending := some w' }) ∧
    ∀ pre w, entriesOf v x.firings = pre ++ [w] →
      (0 ≤ (n.openTick - w.openTick).toInt →
        joinedOrRested x w n fun w' => { x with firings := replaceLast v w' x.firings }) ∧
      ∀ (bound opens raw limit : TickTime), (n.openTick - w.openTick).toInt < 0 → bound = earliestOpen x v pre.getLast? →
        opens = tickMax n.openTick bound → raw = tickMax w.closeTick n.closeTick →
        limit = opens + BitVec.ofNat 36 x.maxOnTicks →
        ((n.closeTick - (bound + 4)).toInt < 0 → x.place n = (x.countMissed .valveBusy 1, .missed .valveBusy)) ∧
        (0 ≤ (n.closeTick - (bound + 4)).toInt →
          x.place n =
            ({ x with
              firings := insertFiring
                { w with
                  openTick := opens, closeTick := if (limit - raw).toInt < 0 then limit else raw
                  joined := min (w.joined + 1) 255, clamped := w.clamped || decide ((limit - raw).toInt < 0)
                  delayed := w.delayed || decide ((n.openTick - bound).toInt < 0) }
                (removeLast v x.firings) },
              .scheduled))) ∧
  (∀ (f w : Firing) (before behind : List Firing), (∀ g ∈ behind, g.valve ≠ w.valve) →
    replaceLast w.valve f (before ++ w :: behind) = before ++ f :: behind ∧
      removeLast w.valve (before ++ w :: behind) = before ++ behind) ∧
  ∀ (f : Firing) (q : List Firing), ∃ before behind, q = before ++ behind ∧ insertFiring f q = before ++ f :: behind ∧
    (∀ g ∈ before, firingBefore f g = false) ∧ ∀ g, behind.head? = some g → firingBefore f g = true

/-! ### The line clock -/

/-- What a line start leaves of a part, from the lane `y` that the clock's own steps leave (its ticks handed to the EJU among
them) and the records they make. The line start reaches the LIU after them (the model's reading: log entry 12; what it does
there: ExpiryKeepsLinesWithinWait); then the INTERVAL snapshot is taken if the lines that expiry handed have reached or passed a
multiple of the interval (R174), and the drain condition is evaluated (R156). In DRAIN a tick of the old line can take the lane
to HOLD first (log entry 13): nothing is left to fire, a swap that waits for the lane is taken, and the LIU only moves E. -/
def lineStarted (s t : State) (after : Nat) (l : LaneId) (y : Lane) (recs : List Record) : Prop :=
  t.lane l.other = s.lane l.other ∧ t.rwu.report l.other = s.rwu.report l.other ∧
  ((t.lane l).mode = (s.lane l).mode →
    ∀ (b u : State) (lines interval : Nat), b = ((s.pass after).setLane l y).records recs → u = b.intakeLineStart l →
      lines = ((u.lane l).counters.linesProcessed - y.counters.linesProcessed).toNat →
      interval = 1024 * 4 ^ (u.lane l).block.statsIntervalCode →
      t.lane l = { u.lane l with drainDue := drainFoundAfterLines y (u.lane l) } ∧ t.rwu.queue = u.rwu.queue ∧ t.rtu = u.rtu ∧
      (0 < lines ∧ interval ≤ y.counters.linesProcessed.toNat % interval + lines →
        t.rwu.report l = { s.rwu.report l with snapshot := some (snapshotOf s t l .interval) }) ∧
      (¬(0 < lines ∧ interval ≤ y.counters.linesProcessed.toNat % interval + lines) →
        t.rwu.report l = s.rwu.report l)) ∧
  ((t.lane l).mode ≠ (s.lane l).mode →
    (s.lane l).mode = .drain ∧ (t.lane l).mode = .hold ∧
      (∀ b : State, b = ((s.pass after).setLane l { y with mode := .hold, drainDue := false, assembly := none }).swapLane l →
        t.lane l = (b.intakeLineStart l).lane l ∧ t.rtu = b.rtu) ∧
      (t.lane l).objects = [] ∧ (t.lane l).firings = [] ∧
      ∃ p, (t.rwu.report l).snapshot = some p ∧ p.mode = .hold ∧ p.cause = .modeChange)

/-- The first edge in WAITING starts line LN + 1 with its tick 0, locks the clock and is recorded FIRST. An accepted edge in LOCKED
at distance M takes the ticks of the old line that are left, in order, starts the next line with its tick 0 and reaches the LIU;
within the band Pq moves an eighth toward 16 M, below it the jitter count rises. What a tick does to the firing queue and the
valves: TickTakesDueEntries. That the clock's steps and its record come before what the LIU does at the line start is the model's
reading (log entry 12). -/
def Obligations.AcceptedEdgesStartLines : Prop :=
  (∀ (s : State) (after : Nat) (l : LaneId) (c d : Clock), s.Settled → s.cmu.slot = none → s.rwu.queue.length < 24 →
    (s.lane l).clock = c → c.state = .waiting →
    d = { c with
          state := .locked, ln := c.ln + 1, k := 0, lineStart := s.now + after
          coastDeadline := some (s.now + after + 9 * (c.pq / 16) / 8), nextSynthetic := none, episode := 0 } →
    ∃ t more, exec (.triggerEdge after l) s = .next t ∧ (t.lane l).clock = d ∧
      t.rwu.queue = s.rwu.queue ++
        ⟨.clockEvent l .locked (some .first) 0 (c.ln + 1) (c.pq / 16), s.rwu.dropCount⟩ :: more ∧
      lineStarted s t after l (tickOf (s.now + after) { s.lane l with clock := d } 0)
        [.clockEvent l .locked (some .first) 0 (c.ln + 1) (c.pq / 16)]) ∧
  ∀ (s : State) (after : Nat) (l : LaneId) (c d : Clock) (m pq : Nat) (old : Lane), s.Settled → s.cmu.slot = none →
    (s.lane l).clock = c → c.state = .locked → c.k ≤ 15 → m = s.now + after - c.lineStart → 2500 ≤ m →
    m ≤ 9 * (c.pq / 16) / 8 →
    pq = (if m < 7 * (c.pq / 16) / 8 then c.pq
      else (max 40000 (min 800000 ((c.pq : Int) + (16 * (m : Int) - (c.pq : Int)) / 8))).toNat) →
    old = ticksOf (s.now + after) (ticksLeft c 15) (s.lane l) →
    d = { c with
          ln := c.ln + 1, k := 0, lineStart := s.now + after, pq := pq
          coastDeadline := some (s.now + after + 9 * (pq / 16) / 8) } →
    ∃ t, exec (.triggerEdge after l) s = .next t ∧ (t.lane l).clock = d ∧
      (t.lane l).counters.jitter =
        (if m < 7 * (c.pq / 16) / 8 then (s.lane l).counters.jitter + 1 else (s.lane l).counters.jitter) ∧
      lineStarted s t after l
        (tickOf (s.now + after)
          { old with
            clock := d
            counters :=
              { old.counters with
                jitter := if m < 7 * (c.pq / 16) / 8 then old.counters.jitter + 1 else old.counters.jitter } } 0) []

/-- Edges that start no line: in IDLE ignored uncounted; within 2,500 reference clocks of the line start, in LOCKED or
COASTING, counted as a glitch alone. A tick sent in IDLE or WAITING, where none falls due, has no effect (log entry 2). -/
def Obligations.IgnoredEdgesAndTicks : Prop :=
  ∀ (s : State) (after : Nat) (l : LaneId), s.Settled →
    ((s.lane l).clock.state = .idle → exec (.triggerEdge after l) s = .next (s.pass after)) ∧
    ((s.lane l).clock.state = .idle ∨ (s.lane l).clock.state = .waiting →
      exec (.tick after l) s = .next (s.pass after)) ∧
    (((s.lane l).clock.state = .locked ∨ (s.lane l).clock.state = .coasting) →
      s.now + after < (s.lane l).clock.lineStart + 2500 →
      exec (.triggerEdge after l) s = .next
        ((s.pass after).modLane l fun x => x.count fun k => { k with glitches := k.glitches + 1 }))

/-- An accepted edge in COASTING: from half a period on it starts a new line, before that it re-anchors the current one; both
lock the clock, keep Pq and are recorded with the episode count. The new line takes the ticks of the old one that are left, then its
own tick 0, and reaches the LIU. That the clock's ticks and its record come before what the LIU does at the line start, so that
NEW_LINE is the first record, is the model's reading (log entry 12). In DRAIN the ticks taken before the new line can end the drain
(log entry 13), and its records then come first. -/
def Obligations.CoastingEdgeRelocks : Prop :=
  ∀ (s : State) (after : Nat) (l : LaneId) (c e : Clock) (d : Nat), s.Settled → s.cmu.slot = none →
    (s.lane l).clock = c → c.state = .coasting → c.lineStart + d = s.now + after → 2500 ≤ d →
    e = { c with
          state := .locked, ln := c.ln + 1, k := 0, lineStart := s.now + after, nextSynthetic := none, episode := 0
          coastDeadline := some (s.now + after + 9 * (c.pq / 16) / 8) } →
    (d < c.pq / 16 / 2 →
      exec (.triggerEdge after l) s = .next
        (((s.pass after).modLane l fun x =>
          { x with
            clock :=
              { c with
                state := .locked, lineStart := s.now + after, nextSynthetic := none, episode := 0
                coastDeadline := some (s.now + after + 9 * (c.pq / 16) / 8) } }).record
          (.clockEvent l .locked (some .reAnchor) c.episode c.ln (c.pq / 16)))) ∧
    (c.pq / 16 / 2 ≤ d →
      ∃ t, exec (.triggerEdge after l) s = .next t ∧ (t.lane l).clock = e ∧
        lineStarted s t after l
          (tickOf (s.now + after)
            { ticksOf (s.now + after) (ticksLeft c 15) (s.lane l) with clock := e } 0)
          [.clockEvent l .locked (some .newLine) c.episode (c.ln + 1) (c.pq / 16)] ∧
        ((s.lane l).mode ≠ .drain → s.rwu.queue.length < 24 → ∃ more,
          t.rwu.queue = s.rwu.queue ++
            ⟨.clockEvent l .locked (some .newLine) c.episode (c.ln + 1) (c.pq / 16), s.rwu.dropCount⟩ :: more) ∧
        ((s.lane l).mode = .drain → s.rwu.queue.length + 3 ≤ 24 → ∃ drained drops more,
          t.rwu.queue = s.rwu.queue ++ drained ++
            ⟨.clockEvent l .locked (some .newLine) c.episode (c.ln + 1) (c.pq / 16), drops⟩ :: more))

/-- A tick that has fallen due sets k and takes from the firing queue every entry whose open tick it is. An opening and a
pending entry whose close tick it is end, the entry missed VALVE_BUSY. Then a due entry opens its closed valve, joins the
current opening, waits in the pending slot, or is missed VALVE_BUSY, and with the supply low it is missed SUPPLY. A tick that
has not fallen due has no effect (log entry 2). The recovery end tick in HOLD is the model's (log entry 23), as is
that a join at the due tick raises JOINED by one, whatever count the entry holds, and sets CLAMPED only where it really shortens
the close (log entry 15). `tickOf`, by which the line starts
are stated, is this tick. -/
def Obligations.TickTakesDueEntries : Prop :=
  (∀ (s : State) (after : Nat) (l : LaneId) (c : Clock) (t : TickTime) (due : List Firing), s.Settled →
    (s.lane l).clock = c →
    (c.state = .locked ∨ c.state = .coasting) → c.k < 15 → c.lineStart + (c.k + 1) * c.pq / 256 ≤ s.now + after →
    t = BitVec.ofNat 36 (c.ln.toNat * 16 + (c.k + 1)) → due = (s.lane l).firings.filter (fun f => f.openTick == t) →
    ∃ u, exec (.tick after l) s = .next u ∧
      u.lane l =
        { s.lane l with
          clock := { c with k := c.k + 1 }, firings := (s.lane l).firings.filter (fun f => f.openTick != t)
          valves := (u.lane l).valves, counters := (u.lane l).counters, drainDue := drainFound (s.lane l) (u.lane l)
          episodeMissed :=
            if (s.lane l).supplyGood = true ∨ due = [] then (s.lane l).episodeMissed
            else min ((s.lane l).episodeMissed + due.length) 65535 } ∧
      u.lane l = tickOf (s.now + after) (s.lane l) (c.k + 1) ∧
      u.lane l.other = s.lane l.other ∧ u.rwu = s.rwu ∧ u.cmu = s.cmu ∧ u.rtu = s.rtu ∧ u.ptu = s.ptu ∧ u.sram = s.sram ∧
      (∀ v y, y = closedAtTick (s.lane l) (s.now + after) t ((s.lane l).valve v) →
        ((∀ f ∈ due, f.valve ≠ v) → (u.lane l).valve v = y) ∧
        ((s.lane l).supplyGood = false → (u.lane l).valve v = y) ∧
        ∀ f, due.filter (fun g => g.valve == v) = [f] → (s.lane l).supplyGood = true →
          (u.lane l).valve v = valveAfterDue (s.lane l) (s.now + after) f y) ∧
      ∀ pendings, pendings = (s.lane l).countValves (fun y => y.pending.map Firing.closeTick == some t) →
        ((s.lane l).supplyGood = false → (u.lane l).counters =
          { (s.lane l).counters with
            missedSupply := (s.lane l).counters.missedSupply + BitVec.ofNat 32 due.length
            missedValveBusy := (s.lane l).counters.missedValveBusy + BitVec.ofNat 32 pendings }) ∧
        ((s.lane l).supplyGood = true → due.Pairwise (fun f g => f.valve ≠ g.valve) →
          ∀ (valveAt : Firing → Valve),
            (∀ f, valveAt f = closedAtTick (s.lane l) (s.now + after) t ((s.lane l).valve f.valve)) →
            (u.lane l).counters =
              { (s.lane l).counters with
                firingsOpened := (s.lane l).counters.firingsOpened +
                  BitVec.ofNat 32 (due.countP fun f => decide ((valveAt f).phase = .closed))
                missedValveBusy := (s.lane l).counters.missedValveBusy +
                  BitVec.ofNat 32 (pendings + due.countP fun f => busyAtDue (valveAt f)) })) ∧
  ∀ (s : State) (after : Nat) (l : LaneId), s.Settled →
    (15 ≤ (s.lane l).clock.k ∨
      s.now + after < (s.lane l).clock.lineStart + ((s.lane l).clock.k + 1) * (s.lane l).clock.pq / 256) →
    exec (.tick after l) s = .next (s.pass after)

/-- A lane after a synthetic line start stamped at a time, from the lane `x` in COASTING: the ticks of the old line that are
left, the new line's tick 0 and every further tick whose time from the stamp has been reached; then the episode count and the
next synthetic time (R117). -/
def syntheticLine (now stamp : Nat) (x : Lane) : Lane :=
  let y := ticksOf now (ticksReached stamp x.clock.pq now)
    { ticksOf now (ticksLeft x.clock 15) x with
      clock := { x.clock with ln := x.clock.ln + 1, k := 0, lineStart := stamp } }
  { y with
    clock := { y.clock with episode := x.clock.episode + 1, nextSynthetic := some (stamp + x.clock.pq / 16) } }

/-- The coast deadline in LOCKED begins an episode with its first synthetic line, stamped one period after the line start, with the
ticks that the line start hands to the EJU. That the record carries the synthetic line's number, and that the clock's steps come
before what the LIU does at the line start, is the model's reading (log entry 12). -/
def Obligations.CoastDeadlineBeginsEpisode : Prop :=
  ∀ (s : State) (after : Nat) (l : LaneId) (c : Clock) (due : Nat) (x : Lane), s.Settled → s.cmu.slot = none →
    s.rwu.queue.length < 24 → (s.lane l).clock = c → c.state = .locked → c.coastDeadline = some due →
    due ≤ s.now + after →
    x = { s.lane l with
          clock := { c with state := .coasting, coastDeadline := none, episode := 0 }
          counters := { (s.lane l).counters with coastEpisodes := (s.lane l).counters.coastEpisodes + 1 } } →
    ∃ t more, exec (.coastDeadline after l) s = .next t ∧ (t.lane l).clock.state = .coasting ∧
      (t.lane l).clock.ln = c.ln + 1 ∧ (t.lane l).clock.lineStart = c.lineStart + c.pq / 16 ∧ (t.lane l).clock.pq = c.pq ∧
      (t.lane l).clock.episode = 1 ∧ (t.lane l).clock.nextSynthetic = some (c.lineStart + c.pq / 16 + c.pq / 16) ∧
      (t.lane l).clock = (syntheticLine (s.now + after) (c.lineStart + c.pq / 16) x).clock ∧
      (t.lane l).counters.coastEpisodes = (s.lane l).counters.coastEpisodes + 1 ∧
      t.rwu.queue = s.rwu.queue ++ ⟨.clockEvent l .coasting none 0 (c.ln + 1) (c.pq / 16), s.rwu.dropCount⟩ :: more ∧
      lineStarted s t after l (syntheticLine (s.now + after) (c.lineStart + c.pq / 16) x)
        [.clockEvent l .coasting none 0 (c.ln + 1) (c.pq / 16)]

/-- A synthetic time that falls due in COASTING starts a synthetic line while the episode count is below coast_limit, with the
ticks that the line start hands to the EJU, which come before what the LIU does (the model's reading: log entry 12); otherwise
the clock is lost: the lane is in FAULT with its clock IDLE, the assembly is discarded, the objects are abandoned and counted,
the queue and the pending slots are emptied and counted CLOCK_LOST, every opening ends; LOST, MODE_CHANGE and FIRINGS_CANCELLED
are recorded in that order, and the snapshot of the mode change is taken. That the line start time is kept at the loss is the
model's choice (log entry 32). -/
def Obligations.SyntheticLineOrLoss : Prop :=
  ∀ (s : State) (after : Nat) (l : LaneId) (c : Clock) (stamp : Nat), s.Settled → s.cmu.slot = none →
    s.rwu.queue.length + 3 ≤ 24 → (s.lane l).clock = c → c.state = .coasting → c.nextSynthetic = some stamp →
    stamp ≤ s.now + after →
    (c.episode < (s.lane l).block.coastLimit →
      ∃ t, exec (.syntheticLineStart after l) s = .next t ∧ (t.lane l).clock.state = .coasting ∧
        (t.lane l).clock.ln = c.ln + 1 ∧ (t.lane l).clock.lineStart = stamp ∧ (t.lane l).clock.pq = c.pq ∧
        (t.lane l).clock.episode = c.episode + 1 ∧ (t.lane l).clock.nextSynthetic = some (stamp + c.pq / 16) ∧
        (t.lane l).clock = (syntheticLine (s.now + after) stamp (s.lane l)).clock ∧
        lineStarted s t after l (syntheticLine (s.now + after) stamp (s.lane l)) []) ∧
    ∀ (queued pendings openings : Nat), queued = (s.lane l).firings.length →
      pendings = (s.lane l).countValves (fun y => y.pending.isSome) →
      openings = (s.lane l).countValves (fun y => y.opening.isSome) → (s.lane l).block.coastLimit ≤ c.episode →
      ∃ t, exec (.syntheticLineStart after l) s = .next t ∧
        t.lane l =
          { s.lane l with
            mode := .fault, drainDue := false, assembly := none, objects := [], firings := [], valves := (t.lane l).valves
            clock := { c with state := .idle, coastDeadline := none, nextSynthetic := none }
            counters :=
              { (s.lane l).counters with
                objectsAbandoned := (s.lane l).counters.objectsAbandoned + BitVec.ofNat 32 (s.lane l).objects.length
                missedClockLost := (s.lane l).counters.missedClockLost + BitVec.ofNat 32 (queued + pendings) } } ∧
        (∀ v, (t.lane l).valve v =
          { phase := shutPhase (s.now + after) (s.lane l).block.recoveryUs ((s.lane l).valve v).phase, pending := none }) ∧
        t.lane l.other = s.lane l.other ∧ t.rtu = s.rtu ∧ t.ptu = s.ptu ∧ t.sram = s.sram ∧
        t.rwu.queue = s.rwu.queue ++
          ⟨.clockEvent l .lost none c.episode c.ln (c.pq / 16), s.rwu.dropCount⟩ ::
            ⟨.modeChange l (s.lane l).mode .fault .clockLost 0 c.ln, 0⟩ ::
              (if queued + pendings + openings = 0 then []
                else [⟨.firingsCancelled l .clockLost queued pendings openings, 0⟩]) ∧
        modeSnapshot s t l

/-! ### Valves and supply -/

/-- What an event of one valve leaves alone: the lane's other valves and everything else of the lane but its counters and the
drain condition found, the other lane, the memory path, the SRAM, the command and recipe units. -/
def onlyValve (s t : State) (l : LaneId) (v : Fin 64) : Prop :=
  (∀ w, w ≠ v → (t.lane l).valve w = (s.lane l).valve w) ∧
    t.lane l =
      { s.lane l with
        valves := (t.lane l).valves, counters := (t.lane l).counters, drainDue := drainFound (s.lane l) (t.lane l) } ∧
    t.lane l.other = s.lane l.other ∧ t.cmu = s.cmu ∧ t.rtu = s.rtu ∧ t.ptu = s.ptu ∧ t.sram = s.sram

/-- The boost timer takes BOOST to SUSTAIN, whose carrier starts driven; the carrier is driven for the first
floor(carrier_us × 50 × sustain_duty / 16) reference clocks of each period. Before their time the two rows have no effect (log
entry 2). The valve output is driven in BOOST and in the driven part of SUSTAIN alone. -/
def Obligations.BoostAndCarrierTimers : Prop :=
  (∀ (s : State) (after : Nat) (l : LaneId) (v : Fin 64) (o : Opening) (now : Nat), s.Settled → now = s.now + after →
    (((s.lane l).valve v).phase = .boost o → o.began + 50 * o.boostUs ≤ now →
      ∃ t, exec (.boostTimer after l v) s = .next t ∧
        t = (s.pass after).modLane l (fun x => x.setValve v { x.valve v with phase := .sustain o now true }) ∧
        onlyValve s t l v ∧ (t.lane l).counters = (s.lane l).counters ∧ t.rwu = s.rwu ∧ t.valveOutput l v = true) ∧
    (((s.lane l).valve v).phase = .boost o → now < o.began + 50 * o.boostUs →
      exec (.boostTimer after l v) s = .next (s.pass after)) ∧
    (∀ p, ((s.lane l).valve v).phase = .sustain o p true → p + o.carrierUs * 50 * o.sustainDuty / 16 ≤ now →
      now < p + 50 * o.carrierUs →
      ∃ t, exec (.carrierPeriod after l v) s = .next t ∧
        t = (s.pass after).modLane l (fun x => x.setValve v { x.valve v with phase := .sustain o p false }) ∧
        onlyValve s t l v ∧ (t.lane l).counters = (s.lane l).counters ∧ t.rwu = s.rwu ∧ t.valveOutput l v = false) ∧
    (∀ p b, ((s.lane l).valve v).phase = .sustain o p b → p + 50 * o.carrierUs ≤ now →
      ∃ t, exec (.carrierPeriod after l v) s = .next t ∧
        t = (s.pass after).modLane l
          (fun x => x.setValve v { x.valve v with phase := .sustain o (p + 50 * o.carrierUs) true }) ∧
        onlyValve s t l v ∧ (t.lane l).counters = (s.lane l).counters ∧ t.rwu = s.rwu ∧ t.valveOutput l v = true) ∧
    (∀ p b, ((s.lane l).valve v).phase = .sustain o p b → now < p + 50 * o.carrierUs →
      (b = false ∨ now < p + o.carrierUs * 50 * o.sustainDuty / 16) →
      exec (.carrierPeriod after l v) s = .next (s.pass after))) ∧
  ∀ (s : State) (l : LaneId) (v : Fin 64), s.valveOutput l v = true ↔
    (∃ o, ((s.lane l).valve v).phase = .boost o) ∨ ∃ o p, ((s.lane l).valve v).phase = .sustain o p true

/-- The guard ends an opening with a trip and a VALVE_LIMIT record; a test's duration ends it without; the recovery end tick is
Tnow + 1 + rec_ticks, unset in OFF and FAULT. The end of recovery closes the valve or opens it with the pending entry. -/
def Obligations.OpeningAndRecoveryEnds : Prop :=
  ∀ (s : State) (after : Nat) (l : LaneId) (v : Fin 64) (now : Nat), s.Settled → now = s.now + after →
    (∀ o, ((s.lane l).valve v).opening = some o → o.began + 50 * o.maxOnUs ≤ now →
      ∃ t, exec (.maxOnGuard after l v) s = .next t ∧ onlyValve s t l v ∧
        (t.lane l).valve v =
          { (s.lane l).valve v with phase := .recover now (s.lane l).block.recoveryUs (restEndsAfterNow (s.lane l)) } ∧
        (t.lane l).counters =
          { (s.lane l).counters with valveLimitTrips := (s.lane l).counters.valveLimitTrips + 1 } ∧
        t.rwu = s.rwu.enqueue (match o.source with
          | .firing f => .valveLimit l v false f.tag f.openTick f.closeTick o.maxOnUs
          | .test _ => .valveLimit l v true 0 0 0 o.maxOnUs)) ∧
    (∀ o d, ((s.lane l).valve v).opening = some o → o.source = .test d → o.began + 50 * d ≤ now →
      ∃ t, exec (.testDurationEnd after l v) s = .next t ∧ onlyValve s t l v ∧ t.rwu = s.rwu ∧
        (t.lane l).valve v =
          { (s.lane l).valve v with phase := .recover now (s.lane l).block.recoveryUs (restEndsAfterNow (s.lane l)) } ∧
        (t.lane l).counters = (s.lane l).counters) ∧
    (∀ b r e, ((s.lane l).valve v).phase = .recover b r e → b + 50 * r ≤ now →
      ∃ t, exec (.recoveryEnd after l v) s = .next t ∧ onlyValve s t l v ∧ t.rwu = s.rwu ∧
        (((s.lane l).valve v).pending = none →
          (t.lane l).valve v = { phase := .closed, pending := none } ∧ (t.lane l).counters = (s.lane l).counters) ∧
        ∀ f, ((s.lane l).valve v).pending = some f →
          (t.lane l).valve v =
            { phase := .boost
                { source := .firing f, began := now, boostUs := (s.lane l).block.boostUs
                  maxOnUs := (s.lane l).block.maxOnUs, sustainDuty := (s.lane l).block.sustainDuty
                  carrierUs := (s.lane l).block.carrierUs }
              pending := none } ∧
          t.valveOutput l v = true ∧
          (t.lane l).counters =
            { (s.lane l).counters with firingsOpened := (s.lane l).counters.firingsOpened + 1 })

/-- R95: the supply drop, in every lane mode. That the drain condition it finds is kept in `drainDue` is the model's (log entry
8). -/
def Obligations.SupplyDropEndsOpenings : Prop :=
  ∀ (s : State) (after : Nat) (l : LaneId) (openings pendings : Nat), s.Settled → s.inReset = false →
    (s.lane l).supplyGood = true → openings = (s.lane l).countValves (fun y => y.opening.isSome) →
    pendings = (s.lane l).countValves (fun y => y.pending.isSome) →
    ∃ t, exec (.supplyDrop after l) s = .next t ∧
      (∀ v, ((t.lane l).valve v).pending = none ∧
        (((s.lane l).valve v).opening = none → ((t.lane l).valve v).phase = ((s.lane l).valve v).phase) ∧
        (((s.lane l).valve v).opening ≠ none →
          ((t.lane l).valve v).phase =
            .recover (s.now + after) (s.lane l).block.recoveryUs (restEndsAfterNow (s.lane l)))) ∧
      t.lane l =
        { s.lane l with
          supplyGood := false, episodeMissed := pendings, valves := (t.lane l).valves
          drainDue := drainFound (s.lane l) (t.lane l)
          counters :=
            { (s.lane l).counters with missedSupply := (s.lane l).counters.missedSupply + BitVec.ofNat 32 pendings } } ∧
      t.lane l.other = s.lane l.other ∧ t.cmu = s.cmu ∧ t.rtu = s.rtu ∧ t.ptu = s.ptu ∧ t.sram = s.sram ∧
      t.rwu = s.rwu.enqueue (.supplyEvent l false openings (s.lane l).mode)

/-- The supply return: SUPPLY_EVENT(RESTORED) with the episode's missed count, which is cleared; no valve changes. -/
def Obligations.SupplyReturnRecordsEpisode : Prop :=
  ∀ (s : State) (after : Nat) (l : LaneId), s.Settled → s.inReset = false → (s.lane l).supplyGood = false →
    exec (.supplyReturn after l) s = .next
      (((s.pass after).modLane l fun x => { x with supplyGood := true, episodeMissed := 0 }).record
        (.supplyEvent l true (s.lane l).episodeMissed (s.lane l).mode))

/-! ### Recipes, drains, captures -/

/-- Whether a targeted lane swaps at once at the end of a valid scan: it is OFF, in HOLD or FAULT, or its clock is WAITING. -/
def swapsAtOnce (x : Lane) : Prop := x.mode.sorting = false ∨ x.clock.state = .waiting

/-- The signature of the first `n` words of a bank, as a number: each step takes the five top bits to the bottom, combines the
word by exclusive OR and adds its offset, modulo 2^32 (R129). -/
def signatureOf (bank : Vector Word 1024) : Nat → Nat
  | 0 => 0x5A5A5A5A
  | i + 1 =>
    let s := signatureOf bank i
    (((s * 32 % 4294967296 + s / 134217728) ^^^ (bank[i]?.getD 0).toNat) + i) % 4294967296

/-- The ranges of the grade block: offset, least and greatest value (R128, 7.2). `p` is the value of a word. -/
def gradeRanges (p : Nat → Nat) : List (Nat × Nat × Nat) :=
  [(0x100, 0, 255), (0x101, p 0x100, 255), (0x102, 0, 255), (0x103, 0, 255), (0x104, 0, 255), (0x105, 0, 1024),
    (0x106, 0, 255), (0x107, 0, 1024), (0x108, 0, 255), (0x109, 0, 1024), (0x10A, 1, 4095), (0x10B, p 0x10A, 65535),
    (0x10C, 8, 255), (0x10D, 0, 2), (0x10E, 0, 1)]

/-- The ranges of a lane block that begins at an offset, but for rear_offset, which is signed (R128, 7.2). -/
def laneRanges (p : Nat → Nat) (b : Nat) : List (Nat × Nat × Nat) :=
  [(b, 0, 1), (b + 2, 16, 65535), (b + 3, 0, 255), (b + 4, 0, 255), (b + 5, 0, 15), (b + 6, 100, min 2000 (p (b + 10))),
    (b + 7, 1, 16), (b + 8, 20, 200), (b + 9, 200, 5000), (b + 10, 500, 20000), (b + 11, 1, 32), (b + 12, 1, 255),
    (b + 13, 1, 1023), (b + 14, 0, 3)]

/-- Where a lane's boundaries and its parameter block begin (7.2). -/
def lanePart : LaneId → Nat × Nat
  | .lane0 => (0x200, 0x240)
  | .lane1 => (0x280, 0x2C0)

/-- What R128 asks of the word at an offset of the staged bank, for a commit of a lane mask. -/
def wordInRange (bank : Vector Word 1024) (m : BitVec 2) (i : Nat) : Prop :=
  let p : Nat → Nat := fun j => (bank[j]?.getD 0).toNat
  (i < 0x100 → ∀ n : Fin 4, p i / 256 ^ n.val % 256 ≤ 6) ∧
    (∀ r ∈ gradeRanges p, i = r.1 → r.2.1 ≤ p i ∧ p i ≤ r.2.2) ∧
    ∀ l, m.getLsbD (laneNumber l) = true →
      (∀ v < 64, i = (lanePart l).1 + v → p i ≤ 1023 ∧ (1 ≤ v → p (i - 1) < p i)) ∧
      (i = (lanePart l).2 + 1 → -32 ≤ (bank[i]?.getD 0).toInt ∧ (bank[i]?.getD 0).toInt ≤ 32) ∧
      ∀ r ∈ laneRanges p (lanePart l).2, i = r.1 → r.2.1 ≤ p i ∧ p i ≤ r.2.2

/-- The end of a scan: SIG_MISMATCH with the signature, else TABLE_INVALID with the lowest invalid offset, else each targeted
lane that is OFF, in HOLD or FAULT, or WAITING swaps at once; when all do, the commit is answered OK with the mask, otherwise
it waits for the others. The signature is that of R129 over the 1,024 words, and a word is valid exactly when it meets R128's ranges
and relations. Before its time, and with no scan, SCAN_END has no effect (log entry 2). -/
def Obligations.ScanEndJudgesCommit : Prop :=
  (∀ bank : Vector Word 1024, (signature bank).toNat = signatureOf bank 1024) ∧
  (∀ (bank : Vector Word 1024) (m : BitVec 2) (i : Nat), stagedWordValid bank m i = true ↔ wordInRange bank m i) ∧
  (∀ (s : State) (after : Nat) (e : Word) (m : BitVec 2) (k : Nat) (r : CommandRecord), s.Settled → s.cmu.slot = none →
    s.rtu.commit = .scanning e m k → s.cmu.executing = some r → k + 1024 ≤ s.now + after →
    (signature s.rtu.staged ≠ e →
      exec (.scanEnd after) s = .next
        { s.pass after with
          rtu := { s.rtu with commit := .idle }
          cmu := { s.cmu with executing := none }
          rwu := s.rwu.enqueue
            (.commandDone r.code r.laneField r.seq .sigMismatch (signature s.rtu.staged)) }) ∧
    (∀ i, signature s.rtu.staged = e → i < 1024 → stagedWordValid s.rtu.staged m i = false →
      (∀ j < i, stagedWordValid s.rtu.staged m j = true) →
      exec (.scanEnd after) s = .next
        { s.pass after with
          rtu := { s.rtu with commit := .idle }
          cmu := { s.cmu with executing := none }
          rwu := s.rwu.enqueue (.commandDone r.code r.laneField r.seq .tableInvalid (BitVec.ofNat 32 i)) }) ∧
    (signature s.rtu.staged = e → (∀ j < 1024, stagedWordValid s.rtu.staged m j = true) →
      ∃ t, exec (.scanEnd after) s = .next t ∧ t.rtu.staged = s.rtu.staged ∧ t.ptu = s.ptu ∧ t.sram = s.sram ∧
        (∀ l, maskHas m l = false → t.lane l = s.lane l) ∧
        (∀ l, maskHas m l = true → swapsAtOnce (s.lane l) → t.lane l = (s.lane l).takeTable s.rtu.staged l) ∧
        (∀ l, maskHas m l = true → ¬swapsAtOnce (s.lane l) → t.lane l = s.lane l ∧ t.swapWaiting l = true) ∧
        ((∃ l, maskHas m l = true) → (∀ l, maskHas m l = true → swapsAtOnce (s.lane l)) →
          t.rtu.commit = .idle ∧ t.cmu = { s.cmu with executing := none } ∧
            t.rwu = s.rwu.enqueue (.commandDone r.code r.laneField r.seq .ok (BitVec.ofNat 32 m.toNat))) ∧
        ((∃ l, maskHas m l = true ∧ ¬swapsAtOnce (s.lane l)) →
          t.cmu = s.cmu ∧ t.rwu = s.rwu ∧ ∃ w, t.rtu.commit = .swapping m w ∧
            ∀ l, maskHas w l = true ↔ maskHas m l = true ∧ swapsAtOnce (s.lane l)))) ∧
  ∀ (s : State) (after : Nat), s.Settled → (∀ e m k, s.rtu.commit = .scanning e m k → s.now + after < k + 1024) →
    exec (.scanEnd after) s = .next (s.pass after)

/-- A lane after its swap: the active table is the staged bank's part, every open object is MIXED, and the swap is
noted at an open line. -/
def tableTaken (bank : Vector Word 1024) (l : LaneId) (x : Lane) : Lane :=
  { x with
    table := some (readTable bank l), objects := x.objects.map fun o => { o with mixed := true }
    assembly := x.assembly.map fun a => { a with mixed := true } }

/-- Whether a header entry is accepted by a lane, as line n. -/
def headerAccepted (x : Lane) (l : LaneId) (e : FifoEntry) (slot : BitVec 4) (h : BitVec 16) (n : LineNo) : Prop :=
  entryAt e l slot 0 ∧ e.be = 0xF ∧ e.data = 0x4C4E#16 ++ h ∧
    ∃ d, d = (x.clock.ln.toNat % 65536 + 65536 - h.toNat) % 65536 ∧ d < 32768 ∧ n = x.clock.ln - BitVec.ofNat 32 d ∧
      0 ≤ (n - x.expected).toInt

/-- Whether an entry brings a lane in RUN or DRAIN to its swap point: it opens a line, or it finishes a line that is handed as
a void line or behind skipped ones. -/
def bringsSwap (x : Lane) (l : LaneId) (e : FifoEntry) : Prop :=
  (∃ slot h n, headerAccepted x l e slot h n) ∨
    ∃ a, x.assembly = some a ∧ entryAt e l a.slot 4095 ∧ e.be = 0xF ∧
      (e.data ≠ 0x4C4E#16 ++ a.header ∨ a.seen < a.expectedCount ∨ a.loss = true ∨ 0 < (a.line - x.expected).toInt)

/-- A swap copies the staged bank's part, marks the objects that are open and notes the swap at an open line
(R36, log entry 35); the last
targeted lane completes the commit with its mask. The active table's fields are the staged words at the offsets of 7.2. The row
LANE_SWAP (log entry 9): in RUN and DRAIN it is the intake event that brings the lane to its swap point, the swap falling inside
it, and has no effect while the head of the FIFO is no such entry; outside RUN and DRAIN the waiting lane swaps at once. A row
sent while such a lane still waits acts after the swap (log entry 8). -/
def Obligations.LaneSwapCopiesStagedBank : Prop :=
  (∀ (bank : Vector Word 1024) (l : LaneId) (a : ActiveTable) (p : Nat → Nat) (b : Nat), a = readTable bank l →
    (p = fun j => (bank[j]?.getD 0).toNat) → b = (lanePart l).2 →
    (∀ i : Fin 256, a.colourMap[i] = bank[i.val]) ∧ (∀ v : Fin 64, a.boundaries[v] = p ((lanePart l).1 + v.val)) ∧
    a.grade =
      { stoneQLo := p 0x100, stoneQHi := p 0x101, stoneMin := p 0x102, foreignMin := p 0x103, darkMin := p 0x104
        darkRatio := p 0x105, yellowMin := p 0x106, yellowRatio := p 0x107, chalkMin := p 0x108, chalkRatio := p 0x109
        minArea := p 0x10A, maxArea := p 0x10B, maxLines := p 0x10C, longPolicy := p 0x10D, overflowPolicy := p 0x10E } ∧
    a.block =
      { rearEnable := p b, rearOffset := (bank[b + 1]?.getD 0).toInt, flightDelay := p (b + 2), lead := p (b + 3)
        lag := p (b + 4), margin := p (b + 5), boostUs := p (b + 6), sustainDuty := p (b + 7), carrierUs := p (b + 8)
        recoveryUs := p (b + 9), maxOnUs := p (b + 10), dataWait := p (b + 11), coastLimit := p (b + 12)
        drainLines := p (b + 13), statsIntervalCode := p (b + 14) }) ∧
  (∀ (s : State) (l : LaneId),
    (s.swapWaiting l = false → s.swapLane l = s) ∧
    ∀ (m w : BitVec 2) (r : CommandRecord), s.rtu.commit = .swapping m w → maskHas m l = true → maskHas w l = false →
      s.cmu.executing = some r →
      s.swapWaiting l = true ∧
      (w ||| laneBit l ≠ m →
        s.swapLane l =
          { s.modLane l (tableTaken s.rtu.staged l) with rtu := { s.rtu with commit := .swapping m (w ||| laneBit l) } }) ∧
      (w ||| laneBit l = m →
        s.swapLane l =
          { s.modLane l (tableTaken s.rtu.staged l) with
            rtu := { s.rtu with commit := .idle }
            cmu := { s.cmu with executing := none }
            rwu := s.rwu.enqueue (.commandDone r.code r.laneField r.seq .ok (BitVec.ofNat 32 m.toNat)) })) ∧
  (∀ (s : State) (after : Nat) (l : LaneId), s.Settled → ((s.lane l).mode = .run ∨ (s.lane l).mode = .drain) →
    (s.swapWaiting l = false → exec (.laneSwap after l) s = .next (s.pass after)) ∧
    (s.ptu.fifo = [] → exec (.laneSwap after l) s = .next (s.pass after)) ∧
    ∀ (e : FifoEntry) (rest : List FifoEntry) (k : LaneId) (slot : BitVec 4) (w : Nat), s.swapWaiting l = true →
      s.ptu.fifo = e :: rest → w < 4096 → entryAt e k slot w →
      (¬bringsSwap (s.lane l) l e → exec (.laneSwap after l) s = .next (s.pass after)) ∧
      (bringsSwap (s.lane l) l e → exec (.laneSwap after l) s = exec (.entryLeavesFifo after) s) ∧
      ∀ h n, headerAccepted (s.lane l) l e slot h n → (s.lane l).assembly = none → s.ptu.stall = none → s.cmu.slot = none →
        exec (.laneSwap after l) s = .next
          (((headGone s after rest).swapLane l).modLane l fun x => { x with assembly := some (openedLine x slot h n) })) ∧
  ∀ (s : State) (after : Nat) (l : LaneId), (s.lane l).mode.sorting = false → s.cmu.slot = none →
    s.cmu.captureWait = none → (∀ k, (s.lane k).mode = .drain → (s.lane k).drainDue = false) →
    exec (.laneSwap after l) s = .next ((s.pass after).swapLane l) ∧
      (((s.lane l.other).mode.sorting = true ∨ s.swapWaiting l.other = false) →
        ∀ c : Instr, (∀ n k, c ≠ .laneSwap n k ∧ c ≠ .drainCondition n k) → (∀ n, c ≠ .captureSnapshot n) →
          exec c s = exec c (s.swapLane l))

/-- At the end of an entry's intake or a line start that handed lines or changed the quiet report, and at a tick, a valve or a
supply event that changes it, the CMU finds the drain condition of a lane in DRAIN to hold exactly when the drain count, the
object table and the EJU's quiet report meet it (kept in `drainDue`, log entry 8); other events of the lane leave what was
found, and one that changes the mode leaves nothing found. The lane then enters HOLD with its assembly discarded, a MODE_CHANGE
of cause DRAINED and a snapshot. -/
def Obligations.DrainConditionEntersHold : Prop :=
  (∀ x : Lane, x.drained = true ↔
    x.block.drainLines ≤ x.drainCount ∧ x.objects = [] ∧ x.firings = [] ∧
      ∀ v, (x.valve v).pending = none ∧ (x.valve v).opening = none) ∧
  (∀ (s t : State) (n : Nat) (l : LaneId) (v : Fin 64), s.Settled → s.inReset = false →
    (∀ c ∈ [Instr.tick n l, .boostTimer n l v, .carrierPeriod n l v, .maxOnGuard n l v, .recoveryEnd n l v,
        .testDurationEnd n l v, .supplyDrop n l, .supplyReturn n l],
      exec c s = .next t → (t.lane l).drainDue = drainFound (s.lane l) (t.lane l)) ∧
    ∀ (e : FifoEntry) (rest : List FifoEntry), s.cmu.slot = none → s.ptu.fifo = e :: rest → ringLane e.offset = l →
      exec (.entryLeavesFifo n) s = .next t →
      (t.lane l).drainDue = drainFoundAfterLines (s.lane l) (t.lane l)) ∧
  (∀ (s t : State) (n : Nat) (l : LaneId), s.Settled → s.inReset = false → s.cmu.slot = none →
    ∀ c ∈ [Instr.triggerEdge n l, .coastDeadline n l, .syntheticLineStart n l], exec c s = .next t →
      (t.lane l).drainDue =
        if (t.lane l).mode = (s.lane l).mode then drainFoundAfterLines (s.lane l) (t.lane l) else false) ∧
  ∀ (s : State) (after : Nat) (l : LaneId), s.cmu.captureWait = none → s.rwu.queue.length < 24 →
    (s.lane l).mode = .drain →
    ((s.lane l).drainDue = false → exec (.drainCondition after l) s = .next (s.pass after)) ∧
    ((s.lane l).drainDue = true →
      ∃ t, exec (.drainCondition after l) s = .next t ∧
        t.lane l = { s.lane l with mode := .hold, drainDue := false, assembly := none } ∧
        t.lane l.other = s.lane l.other ∧ t.rtu = s.rtu ∧ t.cmu = s.cmu ∧ t.ptu = s.ptu ∧
        t.rwu.queue = s.rwu.queue ++
          [⟨.modeChange l .drain .hold .drained 0 (s.lane l).clock.ln, s.rwu.dropCount⟩] ∧
        ∃ p, (t.rwu.report l).snapshot = some p ∧ p.mode = .hold ∧ p.cause = .modeChange)

/-! ### Invariants -/

/-- Every step keeps the bounds of the part's stores and the canonical form of the SRAM's list. -/
def Obligations.StepKeepsBounds : Prop :=
  ∀ s t : State, s.Bounded → s.sram.wf → step s = .next t → t.Bounded ∧ t.sram.wf

/-- The transitions of the table of lane modes, with reset's to OFF. -/
def modeTable : List (LaneMode × LaneMode) :=
  [(.off, .run), (.run, .drain), (.drain, .hold), (.drain, .run), (.hold, .run), (.run, .off), (.drain, .off), (.hold, .off),
    (.fault, .off), (.run, .fault), (.drain, .fault), (.hold, .fault)]

/-- Every step keeps what the lane modes promise: outside RUN and DRAIN nothing is tracked, queued or open from a firing, in
FAULT and with the supply low no valve is open, the clock runs exactly in RUN, DRAIN and HOLD. A lane's mode changes only by a
transition of R155's table: to FAULT only at a synthetic time of its clock, to HOLD only where its drain condition is met, in
an event of its clock or in DRAIN_CONDITION (DrainConditionEntersHold), to RUN and DRAIN only by a go word, to OFF only by a
go word or a reset. -/
def Obligations.StepKeepsModePromises : Prop :=
  (∀ s t : State, s.ModeSound → step s = .next t → t.ModeSound) ∧
  ∀ (s t : State) (c : Instr) (l : LaneId), s.ModeSound → s.Settled → s.cmu.slot = none → exec c s = .next t →
    (t.lane l).mode ≠ (s.lane l).mode →
    ((s.lane l).mode, (t.lane l).mode) ∈ modeTable ∧
      ((t.lane l).mode = .fault → ∃ n, c = .syntheticLineStart n l) ∧
      ((t.lane l).mode = .hold → ∃ n, c = .triggerEdge n l ∨ c = .coastDeadline n l ∨ c = .syntheticLineStart n l) ∧
      ((t.lane l).mode = .run ∨ (t.lane l).mode = .drain ∨ (t.lane l).mode = .off →
        (∃ n, c = .por n ∨ c = .crstn n) ∧ (t.lane l).mode = .off ∨
          (∃ n data, c = .uPortWrite n (frameAddress s 7) data 0xF) ∨
          ∃ n code u f q, f = laneFieldOf l ∧ ∃ p ∈ goRows n code u f q, c = p.2)

/-- Every step keeps the equality of R66, in the counters and in every waiting snapshot. -/
def Obligations.StepKeepsDecisionsBalanced : Prop := ∀ s t : State, s.Balanced → step s = .next t → t.Balanced

/-- Every step keeps the object tables sound: places distinct and below 48, counts that sum to the area, the objects in increasing
order of their disjoint spans, each span within cmin..cmax within the 1,024 columns, LONG and CLUSTER clear. -/
def Obligations.StepKeepsTablesSound : Prop :=
  ∀ s t : State, s.lane0.TableSound → s.lane1.TableSound → step s = .next t → t.lane0.TableSound ∧ t.lane1.TableSound

/-- The reset state meets every one of these invariants. -/
def Obligations.ResetStateIsSound : Prop :=
  State.reset.Bounded ∧ State.reset.sram.wf ∧ State.reset.ModeSound ∧ State.reset.Balanced ∧
    State.reset.lane0.TableSound ∧ State.reset.lane1.TableSound ∧ State.reset.Settled
end

