-- ==== Sys2Proof/Laws/State.lean ====
section
/-! SUPPORT. Reading a field after an update: one lemma for each field and each update of the named operations. -/
namespace Sys2Proof.Machine

/-! ### setLane -/

@[simp] theorem lane_setLane_self (s : State) (l : LaneId) (x : Lane) : (s.setLane l x).lane l = x := by cases l <;> rfl
theorem lane_setLane_ne (s : State) {l m : LaneId} (x : Lane) (h : m ≠ l) : (s.setLane l x).lane m = s.lane m := by
  cases l <;> cases m <;> first | rfl | exact absurd rfl h
@[simp] theorem setLane_lane (s : State) (l : LaneId) : s.setLane l (s.lane l) = s := by cases l <;> rfl
@[simp] theorem setLane_ptu (s : State) (l : LaneId) (x : Lane) : (s.setLane l x).ptu = s.ptu := by cases l <;> rfl
@[simp] theorem setLane_rtu (s : State) (l : LaneId) (x : Lane) : (s.setLane l x).rtu = s.rtu := by cases l <;> rfl
@[simp] theorem setLane_cmu (s : State) (l : LaneId) (x : Lane) : (s.setLane l x).cmu = s.cmu := by cases l <;> rfl
@[simp] theorem setLane_rwu (s : State) (l : LaneId) (x : Lane) : (s.setLane l x).rwu = s.rwu := by cases l <;> rfl
@[simp] theorem setLane_sram (s : State) (l : LaneId) (x : Lane) : (s.setLane l x).sram = s.sram := by cases l <;> rfl
@[simp] theorem setLane_pending (s : State) (l : LaneId) (x : Lane) : (s.setLane l x).pending = s.pending := by
  cases l <;> rfl
@[simp] theorem setLane_now (s : State) (l : LaneId) (x : Lane) : (s.setLane l x).now = s.now := by cases l <;> rfl
@[simp] theorem setLane_events (s : State) (l : LaneId) (x : Lane) : (s.setLane l x).events = s.events := by
  cases l <;> rfl
@[simp] theorem setLane_porAsserted (s : State) (l : LaneId) (x : Lane) :
    (s.setLane l x).porAsserted = s.porAsserted := by cases l <;> rfl
@[simp] theorem setLane_crstAsserted (s : State) (l : LaneId) (x : Lane) :
    (s.setLane l x).crstAsserted = s.crstAsserted := by cases l <;> rfl

/-! ### modLane -/

@[simp] theorem lane_modLane_self (s : State) (l : LaneId) (f : Lane → Lane) : (s.modLane l f).lane l = f (s.lane l) :=
  lane_setLane_self _ _ _
theorem lane_modLane_ne (s : State) {l m : LaneId} (f : Lane → Lane) (h : m ≠ l) : (s.modLane l f).lane m = s.lane m :=
  lane_setLane_ne _ _ h
@[simp] theorem modLane_ptu (s : State) (l : LaneId) (f : Lane → Lane) : (s.modLane l f).ptu = s.ptu := setLane_ptu _ _ _
@[simp] theorem modLane_rtu (s : State) (l : LaneId) (f : Lane → Lane) : (s.modLane l f).rtu = s.rtu := setLane_rtu _ _ _
@[simp] theorem modLane_cmu (s : State) (l : LaneId) (f : Lane → Lane) : (s.modLane l f).cmu = s.cmu := setLane_cmu _ _ _
@[simp] theorem modLane_rwu (s : State) (l : LaneId) (f : Lane → Lane) : (s.modLane l f).rwu = s.rwu := setLane_rwu _ _ _
@[simp] theorem modLane_now (s : State) (l : LaneId) (f : Lane → Lane) : (s.modLane l f).now = s.now := setLane_now _ _ _
@[simp] theorem modLane_events (s : State) (l : LaneId) (f : Lane → Lane) : (s.modLane l f).events = s.events :=
  setLane_events _ _ _
@[simp] theorem modLane_sram (s : State) (l : LaneId) (f : Lane → Lane) : (s.modLane l f).sram = s.sram := setLane_sram _ _ _
@[simp] theorem modLane_pending (s : State) (l : LaneId) (f : Lane → Lane) : (s.modLane l f).pending = s.pending :=
  setLane_pending _ _ _

/-! ### record, records -/

@[simp] theorem record_lane (s : State) (r : Record) (l : LaneId) : (s.record r).lane l = s.lane l := by cases l <;> rfl
@[simp] theorem record_ptu (s : State) (r : Record) : (s.record r).ptu = s.ptu := rfl
@[simp] theorem record_rtu (s : State) (r : Record) : (s.record r).rtu = s.rtu := rfl
@[simp] theorem record_cmu (s : State) (r : Record) : (s.record r).cmu = s.cmu := rfl
@[simp] theorem record_rwu (s : State) (r : Record) : (s.record r).rwu = s.rwu.enqueue r := rfl
@[simp] theorem record_now (s : State) (r : Record) : (s.record r).now = s.now := rfl
@[simp] theorem record_events (s : State) (r : Record) : (s.record r).events = s.events := rfl
@[simp] theorem records_lane (s : State) (rs : List Record) (l : LaneId) : (s.records rs).lane l = s.lane l := by
  cases l <;> rfl
@[simp] theorem records_ptu (s : State) (rs : List Record) : (s.records rs).ptu = s.ptu := rfl
@[simp] theorem records_rtu (s : State) (rs : List Record) : (s.records rs).rtu = s.rtu := rfl
@[simp] theorem records_cmu (s : State) (rs : List Record) : (s.records rs).cmu = s.cmu := rfl
@[simp] theorem records_now (s : State) (rs : List Record) : (s.records rs).now = s.now := rfl
@[simp] theorem records_events (s : State) (rs : List Record) : (s.records rs).events = s.events := rfl
@[simp] theorem records_nil (s : State) : s.records [] = s := rfl
theorem records_cons (s : State) (r : Record) (rs : List Record) : s.records (r :: rs) = (s.record r).records rs := rfl

/-! ### apply -/

@[simp] theorem apply_lane_self (s : State) (l : LaneId) (w : Lane × List Record) : (s.apply l w).lane l = w.1 := by
  simp [State.apply]
theorem apply_lane_ne (s : State) {l m : LaneId} (w : Lane × List Record) (h : m ≠ l) :
    (s.apply l w).lane m = s.lane m := by simp [State.apply, lane_setLane_ne _ _ h]
@[simp] theorem apply_ptu (s : State) (l : LaneId) (w : Lane × List Record) : (s.apply l w).ptu = s.ptu := by
  simp [State.apply]
@[simp] theorem apply_rtu (s : State) (l : LaneId) (w : Lane × List Record) : (s.apply l w).rtu = s.rtu := by
  simp [State.apply]
@[simp] theorem apply_cmu (s : State) (l : LaneId) (w : Lane × List Record) : (s.apply l w).cmu = s.cmu := by
  simp [State.apply]
@[simp] theorem apply_nil (s : State) (l : LaneId) (x : Lane) : s.apply l (x, []) = s.setLane l x := rfl

/-! ### pass -/

@[simp] theorem pass_lane (s : State) (n : Nat) (l : LaneId) : (s.pass n).lane l = s.lane l := by cases l <;> rfl
@[simp] theorem pass_lane0 (s : State) (n : Nat) : (s.pass n).lane0 = s.lane0 := rfl
@[simp] theorem pass_lane1 (s : State) (n : Nat) : (s.pass n).lane1 = s.lane1 := rfl
@[simp] theorem pass_ptu (s : State) (n : Nat) : (s.pass n).ptu = s.ptu := rfl
@[simp] theorem pass_rtu (s : State) (n : Nat) : (s.pass n).rtu = s.rtu := rfl
@[simp] theorem pass_cmu (s : State) (n : Nat) : (s.pass n).cmu = s.cmu := rfl
@[simp] theorem pass_rwu (s : State) (n : Nat) : (s.pass n).rwu = s.rwu := rfl
@[simp] theorem pass_sram (s : State) (n : Nat) : (s.pass n).sram = s.sram := rfl
@[simp] theorem pass_pending (s : State) (n : Nat) : (s.pass n).pending = s.pending := rfl
@[simp] theorem pass_now (s : State) (n : Nat) : (s.pass n).now = s.now + n := rfl
@[simp] theorem pass_events (s : State) (n : Nat) : (s.pass n).events = s.events + 1 := rfl
@[simp] theorem pass_inReset (s : State) (n : Nat) : (s.pass n).inReset = s.inReset := rfl

/-! ### The RWU's reports -/

@[simp] theorem report_setReport_self (w : Rwu) (l : LaneId) (r : LaneReport) : (w.setReport l r).report l = r := by
  cases l <;> rfl
theorem report_setReport_ne (w : Rwu) {l m : LaneId} (r : LaneReport) (h : m ≠ l) :
    (w.setReport l r).report m = w.report m := by cases l <;> cases m <;> first | rfl | exact absurd rfl h
@[simp] theorem setReport_queue (w : Rwu) (l : LaneId) (r : LaneReport) : (w.setReport l r).queue = w.queue := by
  cases l <;> rfl
@[simp] theorem setReport_dropCount (w : Rwu) (l : LaneId) (r : LaneReport) : (w.setReport l r).dropCount = w.dropCount := by
  cases l <;> rfl

/-! ### The memory path -/

@[simp] theorem startWord_access (p : Ptu) : p.startWord.access = p.access := by unfold Ptu.startWord; split <;> rfl
@[simp] theorem startWord_stall (p : Ptu) : p.startWord.stall = p.stall := by unfold Ptu.startWord; split <;> rfl
@[simp] theorem startWord_fifo (p : Ptu) : p.startWord.fifo = p.fifo := by unfold Ptu.startWord; split <;> rfl
@[simp] theorem startWord_guarded (p : Ptu) : p.startWord.guarded = p.guarded := by unfold Ptu.startWord; split <;> rfl
@[simp] theorem carryAccess_sram (s : State) (a : Access) : (s.carryAccess a).sram = s.sram.carry a := rfl
@[simp] theorem carryAccess_access (s : State) (a : Access) : (s.carryAccess a).ptu.access = none := rfl
@[simp] theorem carryAccess_lane (s : State) (a : Access) (l : LaneId) : (s.carryAccess a).lane l = s.lane l := by
  cases l <;> rfl
@[simp] theorem carryPart_sram (s : State) (o : FrameOffset) (d : Word) :
    (s.carryPart o d).sram = s.sram.carry (s.ptu.partAccess o d) := rfl
@[simp] theorem carryPart_ptu (s : State) (o : FrameOffset) (d : Word) : (s.carryPart o d).ptu = s.ptu := rfl
@[simp] theorem carryPart_lane (s : State) (o : FrameOffset) (d : Word) (l : LaneId) : (s.carryPart o d).lane l = s.lane l := by
  cases l <;> rfl

/-! ### Valves -/

@[simp] theorem valve_setValve_self (x : Lane) (v : Fin 64) (y : Valve) : (x.setValve v y).valve v = y := by
  simp [Lane.setValve, Lane.valve]
theorem valve_setValve_ne (x : Lane) {v w : Fin 64} (y : Valve) (h : w ≠ v) : (x.setValve v y).valve w = x.valve w := by
  simp only [Lane.setValve, Lane.valve, Fin.getElem_fin]
  rw [Vector.getElem_set_ne]
  exact fun e => h (Fin.ext e.symm)
@[simp] theorem valve_mapValves (x : Lane) (f : Valve → Valve) (v : Fin 64) :
    (x.mapValves f).valve v = f (x.valve v) := by simp [Lane.mapValves, Lane.valve]

end Sys2Proof.Machine
end

