-- ==== Sys2Proof/Laws/Frames.lean ====
section
/-! SUPPORT. What the blocks behind the memory path leave alone: every named operation of the LIU, OTU, GDU, EJU, LCU, RTU,
CMU and RWU changes neither the path, the SRAM, the queue of commands, the clock count nor the reset inputs. -/
namespace Sys2Proof.Machine

/-- Two states agree outside the lanes, the RTU, the CMU and the RWU. -/
structure State.SamePath (s t : State) : Prop where
  ptu : t.ptu = s.ptu
  sram : t.sram = s.sram
  pending : t.pending = s.pending
  now : t.now = s.now
  events : t.events = s.events
  por : t.porAsserted = s.porAsserted
  crst : t.crstAsserted = s.crstAsserted

namespace State.SamePath
theorem rfl' (s : State) : s.SamePath s := ⟨rfl, rfl, rfl, rfl, rfl, rfl, rfl⟩
theorem trans {a b c : State} (h : a.SamePath b) (k : b.SamePath c) : a.SamePath c :=
  ⟨k.1.trans h.1, k.2.trans h.2, k.3.trans h.3, k.4.trans h.4, k.5.trans h.5, k.6.trans h.6, k.7.trans h.7⟩
theorem inReset {a b : State} (h : a.SamePath b) : b.inReset = a.inReset := by
  simp [State.inReset, h.por, h.crst]
end State.SamePath

open State.SamePath

theorem samePath_setLane (s : State) (l : LaneId) (x : Lane) : s.SamePath (s.setLane l x) := by
  cases l <;> exact ⟨rfl, rfl, rfl, rfl, rfl, rfl, rfl⟩
theorem samePath_modLane (s : State) (l : LaneId) (f : Lane → Lane) : s.SamePath (s.modLane l f) := samePath_setLane _ _ _
theorem samePath_modClock (s : State) (l : LaneId) (f : Clock → Clock) : s.SamePath (s.modClock l f) :=
  samePath_modLane _ _ _
theorem samePath_record (s : State) (r : Record) : s.SamePath (s.record r) := ⟨rfl, rfl, rfl, rfl, rfl, rfl, rfl⟩
theorem samePath_records (s : State) (rs : List Record) : s.SamePath (s.records rs) := ⟨rfl, rfl, rfl, rfl, rfl, rfl, rfl⟩
theorem samePath_apply (s : State) (l : LaneId) (w : Lane × List Record) : s.SamePath (s.apply l w) :=
  (samePath_setLane s l w.1).trans (samePath_records _ _)
theorem samePath_takeSnapshot (s : State) (l : LaneId) (c : SnapshotCause) : s.SamePath (s.takeSnapshot l c) :=
  ⟨rfl, rfl, rfl, rfl, rfl, rfl, rfl⟩
theorem samePath_commonWaits (s : State) : s.SamePath s.commonWaits := ⟨rfl, rfl, rfl, rfl, rfl, rfl, rfl⟩
theorem samePath_setRtu (s : State) (r : Rtu) : s.SamePath { s with rtu := r } := ⟨rfl, rfl, rfl, rfl, rfl, rfl, rfl⟩
theorem samePath_setCmu (s : State) (c : Cmu) : s.SamePath { s with cmu := c } := ⟨rfl, rfl, rfl, rfl, rfl, rfl, rfl⟩
theorem samePath_setRwu (s : State) (w : Rwu) : s.SamePath { s with rwu := w } := ⟨rfl, rfl, rfl, rfl, rfl, rfl, rfl⟩

/-! ### Recipe -/

theorem samePath_answer (s : State) (r : CommandRecord) (c : CommandStatus) (d : Word) : s.SamePath (s.answer r c d) :=
  samePath_record _ _
theorem samePath_completeCommand (s : State) (c : CommandStatus) (d : Word) : s.SamePath (s.completeCommand c d) := by
  unfold State.completeCommand
  split
  · exact (samePath_setCmu _ _).trans (samePath_answer _ _ _ _)
  · exact rfl' s
theorem samePath_endCommit (s : State) (c : CommandStatus) (d : Word) : s.SamePath (s.endCommit c d) :=
  (samePath_setRtu _ _).trans (samePath_completeCommand _ _ _)
theorem samePath_swapLane (s : State) (l : LaneId) : s.SamePath (s.swapLane l) := by
  unfold State.swapLane
  split
  · exact rfl' s
  · exact rfl' s
  · split
    · dsimp only
      split
      · exact (samePath_modLane _ _ _).trans (samePath_endCommit _ _ _)
      · exact (samePath_modLane s l _).trans (samePath_setRtu _ _)
    · exact rfl' s
theorem samePath_swapAtOnce (s : State) (l : LaneId) : s.SamePath (s.swapAtOnce l) := by
  unfold State.swapAtOnce
  split
  · exact samePath_swapLane _ _
  · exact rfl' s
theorem samePath_endScan (s : State) : s.SamePath s.endScan := by
  unfold State.endScan
  split
  · exact rfl' s
  · exact rfl' s
  · split
    · dsimp only
      split
      · exact samePath_endCommit _ _ _
      · split
        · exact samePath_endCommit _ _ _
        · exact (samePath_setRtu s _).trans ((samePath_swapAtOnce _ _).trans (samePath_swapAtOnce _ _))
    · exact rfl' s
theorem samePath_stagingWritten (s : State) (o : BitVec 10) (d : Word) (be : Enables) :
    s.SamePath (s.stagingWritten o d be) := by
  unfold State.stagingWritten
  split
  · exact samePath_setRtu _ _
  · exact (samePath_setRtu s _).trans (samePath_endCommit _ _ _)
  · exact (samePath_setRtu s _).trans (samePath_endCommit _ _ _)

/-! ### Modes -/

theorem samePath_takeCapture (s : State) (l : LaneId) : s.SamePath (s.takeCapture l) := ⟨rfl, rfl, rfl, rfl, rfl, rfl, rfl⟩
theorem samePath_captureIfWaiting (s : State) (l : LaneId) : s.SamePath (s.captureIfWaiting l) := by
  unfold State.captureIfWaiting
  split
  · exact samePath_takeCapture _ _
  · exact rfl' s
theorem samePath_beginCapture (s : State) (l : LaneId) : s.SamePath (s.beginCapture l) := by
  unfold State.beginCapture
  dsimp only
  split
  · exact samePath_setCmu _ _
  · exact samePath_takeCapture _ _
theorem samePath_setMode (s : State) (l : LaneId) (m : LaneMode) (c : ModeCause) (q : BitVec 16) :
    s.SamePath (s.setMode l m c q) := (samePath_setLane s l _).trans (samePath_record _ _)
theorem samePath_startLane (s : State) (l : LaneId) (a b : Nat) (q : BitVec 16) : s.SamePath (s.startLane l a b q) :=
  ((samePath_setMode _ _ _ _ _).trans (samePath_modLane _ _ _)).trans (samePath_takeSnapshot _ _ _)
theorem samePath_holdLane (s : State) (l : LaneId) (q : BitVec 16) : s.SamePath (s.holdLane l q) :=
  ((samePath_setMode _ _ _ _ _).trans (samePath_modLane _ _ _)).trans (samePath_takeSnapshot _ _ _)
theorem samePath_resumeLane (s : State) (l : LaneId) (q : BitVec 16) : s.SamePath (s.resumeLane l q) :=
  (samePath_setMode _ _ _ _ _).trans (samePath_takeSnapshot _ _ _)
theorem samePath_stopLane (s : State) (l : LaneId) (q : BitVec 16) : s.SamePath (s.stopLane l q) :=
  ((samePath_setMode _ _ _ _ _).trans (samePath_apply _ _ _)).trans (samePath_takeSnapshot _ _ _)
theorem samePath_faultLane (s : State) (l : LaneId) : s.SamePath (s.faultLane l) :=
  (((samePath_captureIfWaiting _ _).trans (samePath_setMode _ _ _ _ _)).trans (samePath_apply _ _ _)).trans
    (samePath_takeSnapshot _ _ _)
theorem samePath_enterHold (s : State) (l : LaneId) : s.SamePath (s.enterHold l) :=
  (((samePath_captureIfWaiting _ _).trans (samePath_setMode _ _ _ _ _)).trans (samePath_modLane _ _ _)).trans
    (samePath_takeSnapshot _ _ _)
theorem samePath_evaluateDrain (s : State) (l : LaneId) (q : Bool) (n : Nat) : s.SamePath (s.evaluateDrain l q n) :=
  samePath_modLane _ _ _
theorem samePath_settleCapture (s : State) : s.SamePath s.settleCapture := by
  unfold State.settleCapture
  split
  · split
    · exact samePath_takeCapture _ _
    · exact rfl' s
  · exact rfl' s
theorem samePath_settleDrain (s : State) (l : LaneId) : s.SamePath (s.settleDrain l) := by
  unfold State.settleDrain
  split
  · exact samePath_enterHold _ _
  · exact rfl' s
theorem samePath_settleSwap (s : State) (l : LaneId) : s.SamePath (s.settleSwap l) := by
  unfold State.settleSwap
  split
  · exact rfl' s
  · exact samePath_swapLane _ _

/-! ### Mailbox -/

theorem samePath_withLane (s : State) (r : CommandRecord) (f : LaneId → State) (h : ∀ l, s.SamePath (f l)) :
    s.SamePath (s.withLane r f) := by
  unfold State.withLane
  split
  · exact h _
  · exact samePath_answer _ _ _ _
theorem samePath_commandStart (s : State) (r : CommandRecord) : s.SamePath (s.commandStart r) := by
  refine samePath_withLane _ _ _ fun l => ?_
  repeat' split
  all_goals first | exact samePath_answer _ _ _ _ | exact (samePath_startLane _ _ _ _ _).trans (samePath_answer _ _ _ _)
theorem samePath_commandHold (s : State) (r : CommandRecord) : s.SamePath (s.commandHold r) := by
  refine samePath_withLane _ _ _ fun l => ?_
  repeat' split
  all_goals first | exact samePath_answer _ _ _ _ | exact (samePath_holdLane _ _ _).trans (samePath_answer _ _ _ _)
theorem samePath_commandResume (s : State) (r : CommandRecord) : s.SamePath (s.commandResume r) := by
  refine samePath_withLane _ _ _ fun l => ?_
  repeat' split
  all_goals first | exact samePath_answer _ _ _ _ | exact (samePath_resumeLane _ _ _).trans (samePath_answer _ _ _ _)
theorem samePath_commandStop (s : State) (r : CommandRecord) : s.SamePath (s.commandStop r) := by
  refine samePath_withLane _ _ _ fun l => ?_
  repeat' split
  all_goals first | exact samePath_answer _ _ _ _ | exact (samePath_stopLane _ _ _).trans (samePath_answer _ _ _ _)
theorem samePath_commandCommit (s : State) (r : CommandRecord) : s.SamePath (s.commandCommit r) := by
  unfold State.commandCommit
  split
  · exact samePath_answer _ _ _ _
  · exact (samePath_setCmu s _).trans (samePath_setRtu _ _)
theorem samePath_commandTest (s : State) (r : CommandRecord) : s.SamePath (s.commandTest r) := by
  refine samePath_withLane _ _ _ fun l => ?_
  dsimp only
  repeat' split
  all_goals first | exact samePath_answer _ _ _ _ | exact (samePath_modLane _ _ _).trans (samePath_answer _ _ _ _)
theorem samePath_commandStats (s : State) (r : CommandRecord) : s.SamePath (s.commandStats r) := by
  unfold State.commandStats
  split
  · exact samePath_answer _ _ _ _
  · have h : s.SamePath (((((s.execute r).commonWaits.takeSnapshot .lane0 .command).takeSnapshot .lane1 .command).owe
        .lane0).owe .lane1) :=
      (((((samePath_setCmu _ _).trans (samePath_commonWaits _)).trans (samePath_takeSnapshot _ _ _)).trans
        (samePath_takeSnapshot _ _ _)).trans (samePath_setRwu _ _)).trans (samePath_setRwu _ _)
    dsimp only
    split
    · exact h.trans ((samePath_modLane _ _ _).trans (samePath_modLane _ _ _))
    · exact h
theorem samePath_commandCapture (s : State) (r : CommandRecord) : s.SamePath (s.commandCapture r) :=
  samePath_withLane _ _ _ fun l => (samePath_setCmu s _).trans (samePath_beginCapture _ l)
theorem samePath_executeCommand (s : State) (r : CommandRecord) : s.SamePath (s.executeCommand r) := by
  unfold State.executeCommand
  repeat' split
  · exact samePath_commandStart _ _
  · exact samePath_commandHold _ _
  · exact samePath_commandResume _ _
  · exact samePath_commandStop _ _
  · exact samePath_commandCommit _ _
  · exact samePath_commandTest _ _
  · exact samePath_commandStats _ _
  · exact samePath_commandCapture _ _
  · exact samePath_answer _ _ _ _
theorem samePath_goWordArrives (s : State) (g : Word) : s.SamePath (s.goWordArrives g) := by
  unfold State.goWordArrives
  dsimp only
  split
  · exact samePath_executeCommand _ _
  · split
    · exact samePath_setCmu _ _
    · exact (samePath_setCmu s _).trans (samePath_answer _ _ _ _)
theorem samePath_finishCommands (s : State) : s.SamePath s.finishCommands := by
  unfold State.finishCommands
  split
  · exact ((samePath_settleDrain _ _).trans (samePath_settleDrain _ _)).trans
      ((samePath_setCmu _ _).trans (samePath_executeCommand _ _))
  · exact rfl' s
theorem samePath_settle (s : State) : s.SamePath s.settle :=
  (((((samePath_settleCapture _).trans (samePath_settleDrain _ _)).trans (samePath_settleDrain _ _)).trans
    (samePath_settleSwap _ _)).trans (samePath_settleSwap _ _)).trans (samePath_finishCommands _)

/-- A step that finds nothing owed begins by letting its time pass, and nothing else. -/
theorem begin_of_settled {s : State} (h : s.owes = false) (n : Nat) : s.begin n = s.pass n := by
  simp only [State.owes, Bool.or_eq_false_iff, Bool.and_eq_false_imp, decide_eq_true_eq] at h
  obtain ⟨⟨⟨⟨⟨hc, h0⟩, h1⟩, w0⟩, w1⟩, hf⟩ := h
  have swap (l : LaneId) (hw : (!(s.lane l).mode.sorting) = true → s.swapWaiting l = false) : s.settleSwap l = s := by
    unfold State.settleSwap
    split
    · rfl
    · rename_i hm
      have hw := hw (by simpa using hm)
      unfold State.swapLane
      split
      · rfl
      · rfl
      · rename_i hcom
        simp only [State.swapWaiting, hcom] at hw
        rw [if_neg (by simp [hw])]
  have e1 : s.settleCapture = s := by
    unfold State.settleCapture
    split
    · rename_i hl
      rw [hc (by simp [hl])]
      rfl
    · rfl
  have e2 : s.settleDrain .lane0 = s := by
    unfold State.settleDrain
    rw [if_neg]
    rintro ⟨hm, hd⟩
    exact absurd hd (by simpa [State.lane] using h0 hm)
  have e3 : s.settleDrain .lane1 = s := by
    unfold State.settleDrain
    rw [if_neg]
    rintro ⟨hm, hd⟩
    exact absurd hd (by simpa [State.lane] using h1 hm)
  have e6 : s.finishCommands = s := by
    unfold State.finishCommands
    split
    · rename_i he hs
      have := hf (by simp [he])
      simp [hs] at this
    · rfl
  simp only [State.begin, State.settle, e1, e2, e3, swap .lane0 w0, swap .lane1 w1, e6]

/-- What the beginning of a step changes outside the blocks: the count of reference clocks and of steps. -/
theorem begin_samePath (s : State) (n : Nat) : (s.pass n).SamePath (s.begin n) := by
  obtain ⟨h1, h2, h3, h4, h5, h6, h7⟩ := samePath_settle s
  exact ⟨h1, h2, h3, by simp [State.begin, State.pass, h4], by simp [State.begin, State.pass, h5], h6, h7⟩

/-! ### Intake -/

theorem samePath_damageLine (s : State) (l : LaneId) (a : Assembly) (r : LineFaultReason) :
    s.SamePath (s.damageLine l a r) := (samePath_modLane _ _ _).trans (samePath_record _ _)
theorem samePath_handVoid (s : State) (l : LaneId) (k : Bool) : s.SamePath (s.handVoid l k) :=
  (samePath_swapLane _ _).trans (samePath_apply _ _ _)
theorem samePath_handData (s : State) (l : LaneId) (n : LineNo) (m : Bool) (c : List PixelClass) :
    s.SamePath (s.handData l n m c) := samePath_apply _ _ _
theorem samePath_handSkipped (s : State) (l : LaneId) (n : Nat) : s.SamePath (s.handSkipped l n) := by
  induction n generalizing s with
  | zero => exact rfl' s
  | succ n ih => exact (samePath_handVoid _ _ _).trans (ih _)
theorem samePath_setExpected (s : State) (l : LaneId) (e : LineNo) : s.SamePath (s.setExpected l e) := samePath_modLane _ _ _
theorem samePath_finishLine (s : State) (l : LaneId) (a : Assembly) (d : Word) : s.SamePath (s.finishLine l a d) := by
  unfold State.finishLine
  dsimp only
  split
  · exact (((samePath_damageLine _ _ _ _).trans (samePath_handSkipped _ _ _)).trans (samePath_handVoid _ _ _)).trans
      (samePath_setExpected _ _ _)
  · exact (((samePath_modLane _ _ _).trans (samePath_handSkipped _ _ _)).trans (samePath_handData _ _ _ _ _)).trans
      (samePath_setExpected _ _ _)
theorem samePath_judgedHeader (s : State) (l : LaneId) (p : BitVec 4) (h : BitVec 16) (f : LineNo → State)
    (k : ∀ n, s.SamePath (f n)) : s.SamePath (s.judgedHeader l p h f) := by
  unfold State.judgedHeader
  split
  · exact (samePath_modLane _ _ _).trans (samePath_record _ _)
  · exact (samePath_modLane _ _ _).trans (samePath_record _ _)
  · exact k _
theorem samePath_sortingHeader (s : State) (l : LaneId) (p : BitVec 4) (h : BitVec 16) :
    s.SamePath (s.sortingHeader l p h) := by
  have key (t : State) : t.SamePath (t.judgedHeader l p h fun n => (t.swapLane l).modLane l fun x => x.openLine p h n) :=
    samePath_judgedHeader _ _ _ _ _ fun n => (samePath_swapLane _ _).trans (samePath_modLane _ _ _)
  unfold State.sortingHeader
  dsimp only
  split
  · exact (samePath_damageLine _ _ _ _).trans (key _)
  · exact key s
theorem samePath_endWord (s : State) (l : LaneId) (p : BitVec 4) (d : Word) : s.SamePath (s.endWord l p d) := by
  unfold State.endWord
  split
  · split
    · exact samePath_finishLine _ _ _ _
    · exact samePath_modLane _ _ _
  · exact samePath_modLane _ _ _
theorem samePath_judgeSorting (s : State) (l : LaneId) (e : FifoEntry) : s.SamePath (s.judgeSorting l e) := by
  unfold State.judgeSorting
  dsimp only
  split <;>
    first
      | with_reducible exact samePath_sortingHeader _ _ _ _
      | with_reducible exact samePath_endWord _ _ _ _
      | with_reducible exact samePath_modLane _ _ _
      | with_reducible exact rfl' s
theorem samePath_trackedHeader (s : State) (l : LaneId) (p : BitVec 4) (h : BitVec 16) :
    s.SamePath (s.trackedHeader l p h) := samePath_judgedHeader _ _ _ _ _ fun _ => samePath_setExpected _ _ _
theorem samePath_judgeHolding (s : State) (l : LaneId) (e : FifoEntry) : s.SamePath (s.judgeHolding l e) := by
  unfold State.judgeHolding
  split <;>
    first
      | with_reducible exact samePath_trackedHeader _ _ _ _
      | with_reducible exact samePath_modLane _ _ _
      | with_reducible exact rfl' s
theorem samePath_judgeEntry (s : State) (e : FifoEntry) : s.SamePath (s.judgeEntry e) := by
  unfold State.judgeEntry
  dsimp only
  split <;> first | with_reducible exact rfl' s | with_reducible exact samePath_judgeSorting _ _ _ | with_reducible exact samePath_judgeHolding _ _ _
theorem samePath_expire (s : State) (l : LaneId) (n : Nat) : s.SamePath (s.expire l n) := by
  induction n generalizing s with
  | zero => exact rfl' s
  | succ n ih =>
    simp only [State.expire]
    have tail (t : State) (h : s.SamePath t) (e : LineNo) :
        s.SamePath (((t.handVoid l false).setExpected l e).expire l n) :=
      ((h.trans (samePath_handVoid _ _ _)).trans (samePath_setExpected _ _ _)).trans (ih _)
    split
    · split
      · split
        · exact tail _ (samePath_damageLine _ _ _ _) _
        · exact tail _ (rfl' s) _
      · exact tail _ (rfl' s) _
    · exact rfl' s
theorem samePath_intakeLineStart (s : State) (l : LaneId) : s.SamePath (s.intakeLineStart l) := by
  unfold State.intakeLineStart
  dsimp only
  split <;> first | with_reducible exact rfl' s | with_reducible exact samePath_expire _ _ _ | with_reducible exact samePath_modLane _ _ _
theorem samePath_endIntake (s : State) (l : LaneId) (x : Lane) : s.SamePath (s.endIntake l x) := by
  have h1 (t : State) (b : Word) (n : Nat) : t.SamePath (t.intervalSnapshot l b n) := by
    unfold State.intervalSnapshot
    dsimp only
    split
    · exact samePath_takeSnapshot _ _ _
    · exact rfl' t
  have h2 (t : State) (n : Nat) : t.SamePath (t.lineBoundary l n) := by
    unfold State.lineBoundary
    split
    · exact samePath_setCmu _ _
    · exact rfl' t
  exact (((h1 _ _ _).trans (h2 _ _)).trans (samePath_evaluateDrain _ _ _ _)).trans (samePath_finishCommands _)

/-! ### Clock -/

theorem samePath_takeTick (s : State) (l : LaneId) (k : Nat) : s.SamePath (s.takeTick l k) :=
  (samePath_modLane _ _ _).trans (samePath_evaluateDrain _ _ _ _)
theorem samePath_ticksFrom (s : State) (l : LaneId) (k n : Nat) : s.SamePath (s.ticksFrom l k n) := by
  induction n generalizing s k with
  | zero => exact rfl' s
  | succ n ih =>
    exact (((samePath_takeTick _ _ _).trans (samePath_settleDrain _ _)).trans (samePath_settleSwap _ _)).trans (ih _ _)
theorem samePath_remainingTicks (s : State) (l : LaneId) : s.SamePath (s.remainingTicks l) := samePath_ticksFrom _ _ _ _
theorem samePath_reachedTicks (s : State) (l : LaneId) (n : Nat) : s.SamePath (s.reachedTicks l n) := by
  induction n generalizing s with
  | zero => exact rfl' s
  | succ n ih =>
    simp only [State.reachedTicks]
    split
    · exact (samePath_takeTick _ _ _).trans (ih _)
    · exact rfl' s
theorem samePath_beginLine (s : State) (l : LaneId) (t : Nat) : s.SamePath (s.beginLine l t) :=
  (samePath_modClock _ _ _).trans (samePath_takeTick _ _ _)
theorem samePath_reachIntake (s : State) (l : LaneId) : s.SamePath (s.reachIntake l) :=
  (samePath_intakeLineStart _ _).trans (samePath_endIntake _ _ _)
theorem samePath_recordClock (s : State) (l : LaneId) (e : ClockState) (k : Option LockKind) (n : Nat) :
    s.SamePath (s.recordClock l e k n) := samePath_record _ _
theorem samePath_firstEdge (s : State) (l : LaneId) : s.SamePath (s.firstEdge l) :=
  (((samePath_beginLine _ _ _).trans (samePath_modClock _ _ _)).trans (samePath_recordClock _ _ _ _ _)).trans
    (samePath_reachIntake _ _)
theorem samePath_lockedEdge (s : State) (l : LaneId) : s.SamePath (s.lockedEdge l) :=
  ((((samePath_remainingTicks _ _).trans (samePath_modLane _ _ _)).trans (samePath_beginLine _ _ _)).trans
    (samePath_modClock _ _ _)).trans (samePath_reachIntake _ _)
theorem samePath_relockNewLine (s : State) (l : LaneId) : s.SamePath (s.relockNewLine l) :=
  ((((samePath_remainingTicks _ _).trans (samePath_beginLine _ _ _)).trans (samePath_modClock _ _ _)).trans
    (samePath_recordClock _ _ _ _ _)).trans (samePath_reachIntake _ _)
theorem samePath_reAnchor (s : State) (l : LaneId) : s.SamePath (s.reAnchor l) :=
  (samePath_modClock _ _ _).trans (samePath_recordClock _ _ _ _ _)
theorem samePath_edge (s : State) (l : LaneId) : s.SamePath (s.edge l) := by
  unfold State.edge
  dsimp only
  repeat' split
  all_goals
    first
      | with_reducible exact rfl' s
      | with_reducible exact samePath_firstEdge _ _
      | with_reducible exact samePath_lockedEdge _ _
      | with_reducible exact samePath_relockNewLine _ _
      | with_reducible exact samePath_reAnchor _ _
      | with_reducible exact samePath_modLane _ _ _
theorem samePath_syntheticStart (s : State) (l : LaneId) (t : Nat) : s.SamePath (s.syntheticStart l t) :=
  ((((samePath_remainingTicks _ _).trans (samePath_beginLine _ _ _)).trans (samePath_reachedTicks _ _ _)).trans
    (samePath_modClock _ _ _)).trans (samePath_reachIntake _ _)
theorem samePath_loseClock (s : State) (l : LaneId) : s.SamePath (s.loseClock l) :=
  ((samePath_modClock _ _ _).trans (samePath_recordClock _ _ _ _ _)).trans (samePath_faultLane _ _)
theorem samePath_coast (s : State) (l : LaneId) : s.SamePath (s.coast l) :=
  ((samePath_modLane _ _ _).trans (samePath_record _ _)).trans (samePath_syntheticStart _ _ _)
theorem samePath_deadlineFalls (s : State) (l : LaneId) : s.SamePath (s.deadlineFalls l) := by
  unfold State.deadlineFalls
  dsimp only
  split
  · exact samePath_coast _ _
  · exact rfl' s
theorem samePath_syntheticFalls (s : State) (l : LaneId) : s.SamePath (s.syntheticFalls l) := by
  unfold State.syntheticFalls
  dsimp only
  repeat' split
  all_goals first | with_reducible exact rfl' s | with_reducible exact samePath_loseClock _ _ | with_reducible exact samePath_syntheticStart _ _ _
theorem samePath_tickFalls (s : State) (l : LaneId) : s.SamePath (s.tickFalls l) := by
  unfold State.tickFalls
  dsimp only
  split
  · exact samePath_takeTick _ _ _
  · exact rfl' s

/-! ### Valves, swaps, writer -/

theorem samePath_ejectorEvent (s : State) (l : LaneId) (w : Lane × List Record) : s.SamePath (s.ejectorEvent l w) :=
  (samePath_apply _ _ _).trans (samePath_evaluateDrain _ _ _ _)
theorem samePath_swapOutside (s : State) (l : LaneId) : s.SamePath (s.swapOutside l) :=
  (samePath_swapLane _ _).trans (samePath_finishCommands _)
theorem samePath_completeUnit (s : State) (k : UnitKind) : s.SamePath (s.completeUnit k) := by
  unfold State.completeUnit
  dsimp only
  split
  · exact samePath_setRwu _ _
  · exact samePath_setRwu _ _
  · split
    · split
      · exact (samePath_setRwu s _).trans (samePath_completeCommand _ _ _)
      · exact samePath_setRwu _ _
    · exact samePath_setRwu _ _
  · exact (samePath_setRwu s _).trans (samePath_completeCommand _ _ _)
theorem samePath_wordReported (s : State) : s.SamePath s.wordReported := by
  unfold State.wordReported
  split
  · split
    · exact (samePath_completeUnit _ _).trans (samePath_finishCommands _)
    · exact samePath_setRwu _ _
  · exact rfl' s

end Sys2Proof.Machine
end

