-- ==== Sys2Proof/Laws/Memory.lean ====
section
/-! SUPPORT. The SRAM's list: every write keeps the canonical form, a byte written is read back, every other byte reads as
before. -/
namespace Sys2Proof.Machine

/-- Every key of a written memory is the written address or a key it had. -/
theorem mem_writeByte {m : Memory} {a : Nat} {b : Byte} {c : Host.Cell} (h : c ∈ m.writeByte a b) : c = (a, b) ∨ c ∈ m := by
  induction m with
  | nil => simpa [Memory.writeByte] using h
  | cons d m ih =>
    simp only [Memory.writeByte] at h
    split at h
    · simpa using h
    · split at h
      · rcases List.mem_cons.1 h with h | h
        · exact .inl h
        · exact .inr (List.mem_cons_of_mem _ h)
      · rcases List.mem_cons.1 h with h | h
        · exact .inr (by simp [h])
        · rcases ih h with h | h
          · exact .inl h
          · exact .inr (List.mem_cons_of_mem _ h)

/-- A byte written within the SRAM keeps the canonical form. -/
theorem wf_writeByte {m : Memory} {a : Nat} (b : Byte) (h : m.wf) (ha : a < 4194304) : (m.writeByte a b).wf := by
  refine ⟨?_, fun c hc => (mem_writeByte hc).elim (fun e => by simpa [e] using ha) (h.2 c)⟩
  obtain ⟨hp, -⟩ := h
  induction m with
  | nil => simp [Memory.writeByte]
  | cons d m ih =>
    obtain ⟨hd, hm⟩ := List.pairwise_cons.1 hp
    simp only [Memory.writeByte]
    split
    · rename_i hlt
      refine List.pairwise_cons.2 ⟨fun e he => ?_, hp⟩
      rcases List.mem_cons.1 he with rfl | he
      · exact hlt
      · exact hlt.trans (hd e he)
    · split
      · rename_i heq
        exact List.pairwise_cons.2 ⟨fun e he => by simpa [heq] using hd e he, hm⟩
      · refine List.pairwise_cons.2 ⟨fun e he => ?_, ih hm⟩
        rcases mem_writeByte he with rfl | he
        · show d.1 < a; omega
        · exact hd e he

theorem wf_writeEnabled {m : Memory} {a : Nat} (e : Bool) (b : Byte) (h : m.wf) (ha : a < 4194304) :
    (m.writeEnabled e a b).wf := by
  unfold Memory.writeEnabled
  split
  · exact wf_writeByte b h ha
  · exact h

/-- A word write keeps the canonical form. -/
theorem wf_writeWord {m : Memory} (addr : WordAddr) (data : Word) (be : Enables) (h : m.wf) :
    (m.writeWord addr data be).wf := by
  have : addr.toNat < 1048576 := addr.isLt
  unfold Memory.writeWord
  exact wf_writeEnabled _ _ (wf_writeEnabled _ _ (wf_writeEnabled _ _ (wf_writeEnabled _ _ h (by omega)) (by omega))
    (by omega)) (by omega)

/-- In a canonical memory an address below every key has not been written. -/
theorem readByte?_below {m : Memory} {a : Nat} (h : ∀ c ∈ m, a < c.1) : Memory.readByte? m a = none := by
  induction m with
  | nil => rfl
  | cons d m ih =>
    have hd := h d (by simp)
    simp only [Memory.readByte?]
    rw [if_neg (by omega)]
    exact ih fun c hc => h c (List.mem_cons_of_mem _ hc)

/-- A byte written is read back. -/
@[simp] theorem readByte?_writeByte_self (m : Memory) (a : Nat) (b : Byte) : Memory.readByte? (m.writeByte a b) a = some b := by
  induction m with
  | nil => simp [Memory.writeByte, Memory.readByte?]
  | cons d m ih =>
    simp only [Memory.writeByte]
    split
    · simp [Memory.readByte?]
    · split
      · simp [Memory.readByte?]
      · simp only [Memory.readByte?]
        rw [if_neg (by omega)]
        exact ih

/-- Every other byte reads as before. -/
theorem readByte?_writeByte_ne (m : Memory) {a a' : Nat} (b : Byte) (h : a' ≠ a) :
    Memory.readByte? (m.writeByte a b) a' = Memory.readByte? m a' := by
  induction m with
  | nil => simp [Memory.writeByte, Memory.readByte?, h.symm]
  | cons d m ih =>
    simp only [Memory.writeByte]
    split
    · simp [Memory.readByte?, h.symm]
    · split
      · rename_i heq
        subst heq
        simp [Memory.readByte?, h.symm]
      · simp only [Memory.readByte?, ih]

/-- A byte write with its enable: the byte is read back if enabled, every other byte reads as before. -/
theorem readByte_writeEnabled (m : Memory) (e : Bool) (a a' : Nat) (b : Byte) :
    Memory.readByte (m.writeEnabled e a b) a' = if e = true ∧ a' = a then b else Memory.readByte m a' := by
  unfold Memory.writeEnabled
  cases e
  · simp
  · by_cases h : a' = a
    · subst h
      simp [Memory.readByte]
    · simp [Memory.readByte, readByte?_writeByte_ne _ _ h, h]

/-- What a byte reads after a word write: once for every address (R183). -/
theorem readByte_writeWord (m : Memory) (addr : WordAddr) (data : Word) (be : Enables) (a : Nat) :
    Memory.readByte (m.writeWord addr data be) a =
      if be[3] = true ∧ a = addr.toNat * 4 + 3 then data.extractLsb' 24 8
      else if be[2] = true ∧ a = addr.toNat * 4 + 2 then data.extractLsb' 16 8
      else if be[1] = true ∧ a = addr.toNat * 4 + 1 then data.extractLsb' 8 8
      else if be[0] = true ∧ a = addr.toNat * 4 then data.extractLsb' 0 8
      else Memory.readByte m a := by
  simp only [Memory.writeWord, readByte_writeEnabled]

/-- The SRAM after an access: a read leaves it, a write puts its enabled bytes into its word. -/
theorem readByte_carry (m : Memory) (x : Access) (a : Nat) :
    Memory.readByte (m.carry x) a =
      if x.write = true ∧ ∃ n : Fin 4, x.be[n] = true ∧ a = x.addr.toNat * 4 + n.val then
        x.data.extractLsb' (8 * (a - x.addr.toNat * 4)) 8
      else Memory.readByte m a := by
  unfold Memory.carry
  cases hw : x.write
  · simp
  · simp only [if_true, readByte_writeWord, true_and]
    have e : ∀ n : Fin 4, x.addr.toNat * 4 + n.val - x.addr.toNat * 4 = n.val := fun n => by omega
    by_cases h : ∃ n : Fin 4, x.be[n] = true ∧ a = x.addr.toNat * 4 + n.val
    · rw [if_pos h]
      obtain ⟨n, hb, rfl⟩ := h
      rw [e n]
      match n, hb with
      | 0, hb => simp_all
      | 1, hb => simp_all
      | 2, hb => simp_all
      | 3, hb => simp_all
    · rw [if_neg h]
      push Not at h
      have h0 := h 0
      have h1 := h 1
      have h2 := h 2
      have h3 := h 3
      simp at h0 h1 h2 h3
      rw [if_neg fun c => h3 c.1 c.2, if_neg fun c => h2 c.1 c.2, if_neg fun c => h1 c.1 c.2, if_neg fun c => h0 c.1 c.2]

/-- An access keeps the canonical form. -/
theorem wf_carry {m : Memory} (x : Access) (h : m.wf) : (m.carry x).wf := by
  unfold Memory.carry
  split
  · exact wf_writeWord _ _ _ h
  · exact h

/-- The memory of the reset state is canonical. -/
theorem wf_reset : State.reset.sram.wf := ⟨List.Pairwise.nil, by intro c hc; cases hc⟩

end Sys2Proof.Machine
end

