-- ==== Sys2Proof/Laws/Operations.lean ====
section
/-! SUPPORT. One lemma for each shared operation that says what it does: addresses and merges, the acceptance of a write and of
a go word, records, swaps, snapshots, the end of an intake event that hands nothing. -/
namespace Sys2Proof.Machine

/-! ### Addresses, byte enables, go words -/

theorem toNat_append {a b : Nat} (x : BitVec a) (y : BitVec b) : (x ++ y).toNat = x.toNat * 2 ^ b + y.toNat := by
  rw [BitVec.toNat_append, ← Nat.shiftLeft_add_eq_or_of_lt y.isLt, Nat.shiftLeft_eq]

theorem addressOf_toNat (f : BitVec 2) (o : FrameOffset) : (addressOf f o).toNat = f.toNat * 262144 + o.toNat :=
  toNat_append f o

theorem frameOf_addressOf (f : BitVec 2) (o : FrameOffset) : frameOf (addressOf f o) = f := by
  apply BitVec.eq_of_toNat_eq
  have hf := f.isLt
  have ho := o.isLt
  simp only [frameOf, BitVec.extractLsb'_toNat, addressOf_toNat, Nat.shiftRight_eq_div_pow]
  omega

theorem offsetOf_addressOf (f : BitVec 2) (o : FrameOffset) : offsetOf (addressOf f o) = o := by
  apply BitVec.eq_of_toNat_eq
  have hf := f.isLt
  have ho := o.isLt
  simp only [offsetOf, BitVec.extractLsb'_toNat, addressOf_toNat, Nat.shiftRight_eq_div_pow]
  omega

/-- A full merge is the new word. -/
theorem mergeBytes_full (old data : Word) : mergeBytes old data fullEnables = data := by
  have h : enableMask fullEnables = BitVec.allOnes 32 := by decide
  rw [mergeBytes, h, BitVec.and_allOnes, BitVec.not_allOnes]
  exact (congrArg _ BitVec.and_zero).trans BitVec.or_zero

/-- A merge without enables is the old word. -/
theorem mergeBytes_none (old data : Word) : mergeBytes old data 0 = old := by
  have h : enableMask 0 = BitVec.ofNat 32 0 := by decide
  rw [mergeBytes, h, BitVec.and_zero, BitVec.not_zero, BitVec.zero_or]
  exact BitVec.and_allOnes

/-- The fields of a go word. -/
theorem goWord_fields (code : BitVec 8) (u : BitVec 6) (f : BitVec 2) (q : BitVec 16) :
    goCode (goWord code u f q) = code ∧ goLane (goWord code u f q) = f ∧ goSeq (goWord code u f q) = q := by
  have h1 := code.isLt
  have h2 := u.isLt
  have h3 := f.isLt
  have h4 := q.isLt
  refine ⟨?_, ?_, ?_⟩ <;> apply BitVec.eq_of_toNat_eq <;>
    simp only [goCode, goLane, goSeq, goWord, BitVec.extractLsb'_toNat, toNat_append, Nat.shiftRight_eq_div_pow] <;> omega

theorem laneOfField_laneFieldOf (l : LaneId) : laneOfField (laneFieldOf l) = some l := by cases l <;> rfl

/-! ### The acceptance of a write -/

/-- A write presented to a ready port at an offset of the selected frame is held for the S-port and its copy acts. -/
theorem acceptFrameWrite_of_ready {s : State} {n : Nat} (h : s.PortReady) (o : FrameOffset) (data : Word) (be : Enables) :
    (s.begin n).acceptFrameWrite o data be =
      ((s.pass n).hold ⟨addressOf s.ptu.frameSelect o, true, data, be⟩).observe o data be := by
  obtain ⟨h, hr, ha⟩ := h
  simp [begin_of_settled h, State.acceptFrameWrite, State.acceptWrite, ha, State.takeWrite, pass_inReset, hr,
    frameOf_addressOf, offsetOf_addressOf]

/-- A go word presented to a ready port while no command executes is judged and executed with the shadow's arguments. -/
theorem acceptGoWord_of_ready {s : State} {n m : Nat} (h : s.CommandReady m) (code : BitVec 8) (u : BitVec 6) (f : BitVec 2)
    (q : BitVec 16) :
    (s.begin n).acceptGoWord code u f q =
      ((s.pass n).hold ⟨addressOf s.ptu.frameSelect 7, true, goWord code u f q, fullEnables⟩).executeCommand
        ⟨code, f, q, s.cmu.shadow⟩ := by
  have hd : sortOffset 7 = .goWord := by decide
  obtain ⟨h1, h2, h3⟩ := goWord_fields code u f q
  unfold State.acceptGoWord
  rw [acceptFrameWrite_of_ready h.toPortReady]
  simp only [State.observe, hd, State.goWritten, fullWrite, beq_self_eq_true, if_true, State.goWordArrives, Cmu.recordOf, h1, h2,
    h3]
  simp [State.hold, h.idle]

/-! ### Records -/

/-- A record joins the queue at its tail with the drop count, or is discarded and counted; a record already queued stays. -/
theorem enqueue_cases (w : Rwu) (r : Record) :
    (w.queue.length < 24 ∧ w.enqueue r = { w with queue := w.queue ++ [⟨r, w.dropCount⟩], dropCount := 0 }) ∨
      (24 ≤ w.queue.length ∧
        w.enqueue r = { w with dropCount := min (w.dropCount + 1) 255, droppedTotal := w.droppedTotal + 1 }) := by
  by_cases h : w.queue.length < 24
  · exact .inl ⟨h, by simp [Rwu.enqueue, Config.eventQueuePlaces, h]⟩
  · exact .inr ⟨by omega, by simp [Rwu.enqueue, Config.eventQueuePlaces, Config.dropCountMax, h]⟩

/-- The event queue keeps what it held, in order, and stays within its 24 places. -/
theorem enqueue_queue (w : Rwu) (r : Record) (h : w.queue.length ≤ 24) :
    w.queue <+: (w.enqueue r).queue ∧ (w.enqueue r).queue.length ≤ 24 := by
  rcases enqueue_cases w r with ⟨hl, e⟩ | ⟨_, e⟩
  · rw [e]
    exact ⟨⟨_, rfl⟩, by simpa using hl⟩
  · rw [e]
    exact ⟨⟨[], by simp⟩, h⟩

theorem modLane_lane (s : State) (l : LaneId) (f : Lane → Lane) : (s.modLane l f).lane l = f (s.lane l) := by cases l <;> rfl
theorem modLane_other (s : State) (l : LaneId) (f : Lane → Lane) : (s.modLane l f).lane l.other = s.lane l.other := by
  cases l <;> rfl
theorem modLane_same (s : State) (l : LaneId) (f : Lane → Lane) (h : f (s.lane l) = s.lane l) : s.modLane l f = s := by
  rw [State.modLane, h]
  cases l <;> rfl

/-! ### Commands and follow-ups -/

/-- A settled part has no pending command behind a command that has completed. -/
theorem slot_of_settled {s : State} (h : s.Settled) : s.cmu.executing = none → s.cmu.slot = none := by
  intro he
  simp [State.Settled, State.owes, he] at h
  exact h.2

/-- No pending command is executed while one executes, or where none is held. -/
theorem finishCommands_same {s : State} (h : s.cmu.executing = none → s.cmu.slot = none) : s.finishCommands = s := by
  unfold State.finishCommands
  split
  · rename_i a b
    rw [h a] at b
    cases b
  · rfl

/-- A lane that does not wait for its swap point does not swap. -/
theorem swapLane_of_not_waiting {s : State} {l : LaneId} (h : s.swapWaiting l = false) : s.swapLane l = s := by
  unfold State.swapLane
  unfold State.swapWaiting at h
  split <;> simp_all

/-- Everything a swap does to its lane: the table, MIXED on the open objects, the note at an open line. -/
theorem takeTable_eq (x : Lane) (bank : Vector Word 1024) (l : LaneId) :
    x.takeTable bank l =
      { x with
        table := some (readTable bank l), objects := x.objects.map fun o => { o with mixed := true }
        assembly := x.assembly.map fun a => { a with mixed := true } } := rfl

/-- A line that no swap came across leaves the tracker's result as it is (R48, R55). -/
@[simp] theorem markFormed_false (r : LineResult) : r.markFormed false = r := by simp [LineResult.markFormed]

/-- A lane that waits takes the staged bank; the last one completes the commit with the lane mask as its detail. -/
theorem swapLane_of_waiting {s : State} {l : LaneId} {mask swapped : BitVec 2} (hc : s.rtu.commit = .swapping mask swapped)
    (h : s.swapWaiting l = true) :
    s.swapLane l =
      if swapped ||| laneBit l = mask then
        (s.modLane l fun x => x.takeTable s.rtu.staged l).endCommit .ok (mask.setWidth 32)
      else
        { s.modLane l fun x => x.takeTable s.rtu.staged l with
          rtu := { s.rtu with commit := .swapping mask (swapped ||| laneBit l) } } := by
  have hw : (maskHas mask l && !maskHas swapped l) = true := by simpa [State.swapWaiting, hc] using h
  unfold State.swapLane
  simp only [hc, hw, if_true]
  split <;> simp

/-- The drain condition is not evaluated where no line was handed and the quiet report stands. -/
theorem evaluateDrain_same {s : State} {l : LaneId} {q : Bool} (h : (s.lane l).quiet = q) : s.evaluateDrain l q 0 = s := by
  unfold State.evaluateDrain
  exact modLane_same _ _ _ (by simp [h])

/-- An intake event that hands no line and leaves the quiet report ends without a snapshot, a boundary or an evaluation. -/
theorem endIntake_same {s : State} {l : LaneId} {before : Lane} (h : s.cmu.executing = none → s.cmu.slot = none)
    (hp : (s.lane l).counters.linesProcessed = before.counters.linesProcessed) (hq : (s.lane l).quiet = before.quiet) :
    s.endIntake l before = s := by
  simp only [State.endIntake, linesHanded, hp, BitVec.sub_self]
  have e1 : s.intervalSnapshot l before.counters.linesProcessed (BitVec.toNat 0#32) = s := by simp [State.intervalSnapshot]
  have e2 : s.lineBoundary l (BitVec.toNat 0#32) = s := by simp [State.lineBoundary]
  have e3 : s.evaluateDrain l before.quiet (BitVec.toNat 0#32) = s := evaluateDrain_same hq
  rw [e1, e2, e3]
  exact finishCommands_same h

/-- A snapshot copies its lane's counters, mode and clock; one that replaces a waiting snapshot keeps the older age. -/
theorem snapshot_taken (s : State) (l : LaneId) (cause : SnapshotCause) :
    ∃ p, ((s.takeSnapshot l cause).rwu.report l).snapshot = some p ∧ p.counters = (s.lane l).counters ∧
      p.mode = (s.lane l).mode ∧ p.cause = cause ∧ p.ln = (s.lane l).clock.ln ∧
      p.age = ((s.rwu.report l).snapshot.map Snapshot.age).getD s.events := by
  cases l <;> refine ⟨_, rfl, rfl, rfl, rfl, rfl, ?_⟩ <;>
    cases h : (s.rwu.report _).snapshot <;> simp

/-! ### The S-port -/

/-- What the arbiter can do: nothing on a busy port or with nothing to carry; a free port goes to the access that waits, or to
the head word, which goes before a waiting access only by the guard, once for each access. -/
theorem arbitrate_cases (p : Ptu) (now : Nat) :
    ((p.sport ≠ .free ∨ p.accessWaits = false ∧ p.writerQueue = []) ∧ p.arbitrate now = p) ∨
      (p.sport = .free ∧ p.accessWaits = true ∧ p.guardActs now = false ∧
        p.arbitrate now = { p with sport := .controller, guarded := false }) ∨
      ∃ w rest, p.sport = .free ∧ p.writerQueue = w :: rest ∧
        (p.accessWaits = false ∧
            p.arbitrate now = { p with writerQueue := rest, sport := .part w.offset w.data } ∨
          p.accessWaits = true ∧ p.guarded = false ∧ w.entered + 800 ≤ now ∧
            p.arbitrate now = { p with writerQueue := rest, sport := .part w.offset w.data, guarded := true }) := by
  by_cases hs : p.sport = .free
  · cases ha : p.accessWaits
    · cases hq : p.writerQueue with
      | nil => exact .inl ⟨.inr ⟨rfl, rfl⟩, by simp [Ptu.arbitrate, hs, ha, Ptu.startWord, hq]⟩
      | cons w rest =>
        exact .inr (.inr ⟨w, rest, hs, rfl, .inl ⟨rfl, by simp [Ptu.arbitrate, hs, ha, Ptu.startWord, hq]⟩⟩)
    · cases hg : p.guardActs now
      · exact .inr (.inl ⟨hs, rfl, rfl, by simp [Ptu.arbitrate, hs, ha, hg]⟩)
      · have h := hg
        simp only [Ptu.guardActs, Bool.and_eq_true, Bool.not_eq_true', Ptu.headStarves] at h
        cases hq : p.writerQueue with
        | nil => simp [hq] at h
        | cons w rest =>
          rw [hq] at h
          exact .inr (.inr ⟨w, rest, hs, rfl, .inr ⟨rfl, h.1, of_decide_eq_true h.2,
            by simp [Ptu.arbitrate, hs, ha, hg, Ptu.startWord, hq]⟩⟩)
  · exact .inl ⟨.inl hs, by unfold Ptu.arbitrate; split <;> simp_all⟩

/-- The address of a part write: its offset in the selected frame. -/
theorem partAccess_addr_toNat (p : Ptu) (o : FrameOffset) (d : Word) :
    (p.partAccess o d).addr.toNat = p.frameSelect.toNat * 262144 + o.toNat := addressOf_toNat _ _

/-! ### LANE_SWAP -/

/-- A settled part owes neither a capture nor a HOLD entry. -/
theorem settle_parts {s : State} (h : s.Settled) :
    s.settleCapture = s ∧ (∀ l, s.settleDrain l = s) ∧ ∀ l, (s.lane l).mode.sorting = false → s.swapWaiting l = false := by
  simp only [State.Settled, State.owes, Bool.or_eq_false_iff, Bool.and_eq_false_iff] at h
  obtain ⟨⟨⟨⟨⟨hc, h0⟩, h1⟩, w0⟩, w1⟩, -⟩ := h
  refine ⟨?_, fun l => ?_, fun l hl => ?_⟩
  · unfold State.settleCapture
    split
    · rename_i l hw
      rcases hc with hc | hc
      · simp [hw] at hc
      · simp [hc]
    · rfl
  · unfold State.settleDrain
    cases l
    · simp only [State.lane]; rcases h0 with h | h <;> simp_all
    · simp only [State.lane]; rcases h1 with h | h <;> simp_all
  · cases l
    · simp only [State.lane] at hl; rcases w0 with h | h <;> simp_all
    · simp only [State.lane] at hl; rcases w1 with h | h <;> simp_all

/-- LANE_SWAP of a settled part in RUN or DRAIN: the intake event that brings the waiting lane to its swap point, or nothing. -/
theorem execLaneSwap_of_settled {s : State} {l : LaneId} (after : Nat) (h : s.Settled) (hm : (s.lane l).mode.sorting = true) :
    execLaneSwap after l s =
      if s.swapWaiting l = true ∧ s.atSwapPoint l = true then execEntryLeavesFifo after s else .next (s.pass after) := by
  obtain ⟨h1, h2, -⟩ := settle_parts h
  have e : (s.pass after).swapWaiting l = s.swapWaiting l := rfl
  have f : (s.pass after).atSwapPoint l = s.atSwapPoint l := by cases l <;> rfl
  simp only [execLaneSwap, h1, h2, hm, if_true, execEntryLeavesFifo, begin_of_settled h, State.swapAtEntry, e, f, Bool.and_eq_true]
  split <;> rfl

/-! ### Firings -/

/-- An entry takes its place in queue order between the entries it found. -/
theorem insertFiring_mem (f g : Firing) (q : List Firing) : g ∈ insertFiring f q ↔ g = f ∨ g ∈ q := by
  induction q with
  | nil => simp [insertFiring]
  | cons h t ih =>
    unfold insertFiring
    split
    · simp
    · simp only [List.mem_cons, ih]
      tauto

theorem insertFiring_length (f : Firing) (q : List Firing) : (insertFiring f q).length = q.length + 1 := by
  induction q with
  | nil => rfl
  | cons h t ih =>
    unfold insertFiring
    split <;> simp [ih]

/-- Replacing a valve's last entry keeps the length of the queue. -/
theorem replaceLast_length (v : Fin 64) (f : Firing) (q : List Firing) : (replaceLast v f q).length = q.length := by
  induction q with
  | nil => rfl
  | cons h t ih =>
    unfold replaceLast
    split <;> simp [ih]

end Sys2Proof.Machine
end

