-- ==== Sys2Proof/Tests/Slice0.lean ====
section
/-! SUPPORT. Tests: ill-formed commands, the worked examples of the spec, one-step checks of the commands, and for every
statement with hypotheses a state and operands that meet them (`witness_…`), at the boundary values of its clauses. -/
namespace Sys2Proof.Tests
open Sys2Proof Sys2Proof.Machine

/-! ### Well-formedness -/

theorem test_unwatched_scan_word_is_ill_formed : (Instr.scanRingWrite 0 .lane0 0 3072 0 0xF).wellFormed = false := by decide
theorem test_mailbox_gap_word_is_ill_formed : (Instr.scanRingWrite 0 .lane1 0 1 0 0xF).wellFormed = false := by decide
theorem test_watched_scan_word_is_well_formed : (Instr.scanRingWrite 0 .lane1 15 4095 0 0xF).wellFormed = true := by decide
theorem test_command_code_is_no_bad_command : (Instr.badCommand 0 0x10 0 0 0).wellFormed = false := by decide
theorem test_free_code_is_bad_command : (Instr.badCommand 0 0x05 0 0 0).wellFormed = true := by decide

/-! ### The spec's worked values -/

/-- A pixel word of R, G, B, NIR (11.2). -/
def pix (r g b nir : BitVec 8) : Word := nir ++ r ++ g ++ b

/-- 2.6, a yellowed kernel: L 160, Yd 55, Q 54, index 662. -/
theorem test_yellowed_kernel :
    brightness 180 170 120 = 160 ∧ yellowness 180 170 120 = 55 ∧ stoneIndex 150 160 = 54 ∧
      mapIndex (pix 180 170 120 150) = 662 := by decide
/-- 2.6, values at the limits. -/
theorem test_feature_limits :
    yellowness 255 255 0 = 127 ∧ yellowness 0 0 255 = -128 ∧ stoneIndex 255 0 = 255 ∧ mapIndex (pix 0 0 255 0) = 256 ∧
      mapIndex (pix 1 0 1 0) = 15 ∧ mapIndex (pix 255 255 255 255) = 1008 := by decide
/-- 2.6, the stone: map class DARK, Q 106 inside the band 80..120. -/
theorem test_stone_band : stoneBand { stoneQLo := 80, stoneQHi := 120 } (stoneIndex 200 104) .dark = .stone ∧
    stoneBand { stoneQLo := 80, stoneQHi := 120 } (stoneIndex 60 55) .dark = .dark := by decide
/-- 2.6, the rear view with offset +3. -/
theorem test_rear_pairing : pairedRear 3 1023 = some 3 ∧ pairedRear 3 513 = some 513 ∧ pairedRear 3 2 = none := by decide
/-- 1.9, header reconstruction across the 16-bit wrap. -/
theorem test_header_reconstruction :
    judgeHeader 65539 65530 3 = .accepted 65539 ∧ judgeHeader 65539 65530 65534 = .accepted 65534 ∧
      judgeHeader 65539 65530 5 = .ahead ∧ judgeHeader 65539 65535 65534 = .stale 65534 := by decide
/-- 10.7, decoding offsets of the selected frame. -/
theorem test_sort_offsets :
    sortOffset 0x00007 = .goWord ∧ sortOffset 0x00008 = .consumerIndex ∧ sortOffset 0x00040 = .nowhere ∧
      sortOffset 0x00512 = .staging 0x112 ∧ sortOffset 0x20400 = .scanRing ∧ sortOffset 0x21BFF = .scanRing ∧
      sortOffset 0x21C00 = .nowhere ∧ sortOffset 0x3F000 = .scanRing ∧ sortOffset 0x01020 = .nowhere := by decide
/-- 6.9, averaging, with the negative step rounding toward minus infinity. -/
theorem test_averaging :
    averagePq 80000 5040 = 80080 ∧ averagePq 80080 4990 = 80050 ∧ averagePq 80050 5010 = 80063 ∧
      averagePq 80063 5000 = 80055 ∧ averagePq 80005 4990 = 79984 := by decide

/-- 11.4, the reject of object A and the answer to the commit of sequence 41. -/
theorem test_encoded_records :
    (QueuedRecord.mk (.objectRejected .lane0
        { firstLine := 1000, lastLine := 1023, cmin := 300, cmax := 330, area := 180, reason := .dark, mixed := false
          merged := false, long := false, cluster := false, wide := false, clamped := false, truncated := false, planned := 3
          firstValve := 18, scheduled := 2, missed := 1, firstMiss := .valveBusy, openTick := 18392 }) 0).words =
        [0x10000000, 0x000003E8, 0x000003FF, 0x012C014A, 0x000000B4, 0x04000312, 0x03020100, 0x000047D8] ∧
      (QueuedRecord.mk (.commandDone 0x10 0 41 .ok 3) 2).words =
        [0x02000002, 0x10000029, 0x00000000, 0x00000003, 0, 0, 0, 0] := by decide
/-- 11.7, the entry of valve 22. -/
theorem test_encoded_entry :
    ({ valve := 22, openTick := 18400, closeTick := 18650, tag := 1004, delayed := true } : Firing).words =
      [0x16040000, 0x000047E0, 0, 0x000048DA, 0, 0x000003EC, 0, 0] := by decide
/-- 7.3, the first words of a signature. -/
theorem test_first_signature_words :
    signatureFrom Config.signatureSeed 0 [0] = 0x4B4B4B4B ∧ signatureFrom Config.signatureSeed 0 [0, 0x11] = 0x69696979 ∧
      signatureFrom Config.signatureSeed 0 [0, 0x11, 0] = 0x2D2D2F2F := by decide

/-- The recipe of 4.8. -/
def cases : GradeBlock :=
  { stoneMin := 1, foreignMin := 2, longPolicy := 2, minArea := 12, darkMin := 4, darkRatio := 40, yellowMin := 10
    yellowRatio := 200, chalkMin := 0, chalkRatio := 300 }
/-- An object with an area and counts. -/
def piece (area : Nat) (n : ClassCounts) (long : Bool) : OpenObject :=
  { slotId := 0, firstLine := 0, lastLine := 0, spanStart := 0, spanEnd := 0, cmin := 0, cmax := 0, area := area, counts := n
    long := long }
/-- 4.8, decisions A to F. -/
theorem test_decisions :
    decideObject cases (piece 180 { dark := 12, yellow := 30, chalk := 50 } false) = .reject .dark ∧
      decideObject cases (piece 180 { dark := 6, yellow := 45, chalk := 60 } false) = .reject .yellow ∧
      decideObject cases (piece 180 { dark := 3, yellow := 20, chalk := 120 } false) = .accept ∧
      decideObject cases (piece 9 { dark := 5 } false) = .fragment ∧
      decideObject cases (piece 9 { stone := 1 } false) = .reject .stone ∧
      decideObject cases (piece 400 { dark := 20 } true) = .reject .dark := by decide

/-- The table of 4.8 with uniform boundaries. -/
def table48 : ActiveTable :=
  { grade := cases, boundaries := Vector.ofFn fun v => 16 * v.val
    block := { flightDelay := 2400, lead := 8, lag := 12, margin := 4, maxOnUs := 3000, boostUs := 500, sustainDuty := 8
               carrierUs := 50, recoveryUs := 1000, dataWait := 2, coastLimit := 3, drainLines := 1 } }
/-- A lane with that table, in a mode and a clock state, at line 100, tick 3. -/
def laneIn (m : LaneMode) (c : ClockState) : Lane :=
  { mode := m, table := some table48, expected := 100
    clock := { state := c, ln := 100, k := 3, pq := 80000, lineStart := 1000 } }
/-- The part with that lane 0, at time 2,000. -/
def part (x : Lane) : State := { lane0 := x, now := 2000 }
/-- 4.8, window and span of object A; clamping on a fast line; a wide object. -/
theorem test_window_and_span :
    (laneIn .run .locked).window 1000 1023 = ⟨18392, 18796, false⟩ ∧ valveSpan table48 300 330 = some ⟨18, 3, false⟩ ∧
      ({ laneIn .run .locked with clock := { pq := 40000 } } : Lane).window 2000 2079 = ⟨34392, 35352, true⟩ ∧
      valveSpan table48 500 590 = some ⟨32, 4, true⟩ := by decide +kernel
/-- 4.8, a late window. -/
theorem test_lateness :
    lateness 8096 ⟨8032, 8116, false⟩ = .truncated ∧ lateness 8112 ⟨8032, 8116, false⟩ = .late ∧
      lateness 16412 ⟨18392, 18796, false⟩ = .stands := by decide

/-! ### Hypotheses that can be met: queue, time, frames, resets -/

/-- The part at rest. -/
def bare : State := {}
/-- The part at rest with `n` records in the event queue. -/
def queued (n : Nat) : State := { rwu := { queue := List.replicate n ⟨.resetDone 0 false, 0⟩ } }
/-- An access in progress. -/
def anAccess (write : Bool) (be : Enables) : Access := ⟨0x80007, write, 0x01020304, be⟩
/-- An entry at a slot word of a lane. -/
def entry (l : LaneId) (slot : BitVec 4) (w : BitVec 12) (data : Word) (be : Enables) : FifoEntry :=
  ⟨scanRingOffset l slot w, data, be⟩
/-- The part with a lane 0 and one entry at the head of the observation FIFO. -/
def feeding (x : Lane) (e : FifoEntry) : State := { lane0 := x, ptu := { fifo := [e] }, now := 2000 }
/-- A command that executes. -/
def aCommand (code : BitVec 8) : CommandRecord := ⟨code, 0, 0, .replicate 7 0⟩

/-- A write of lane 1 that is held, with the access it belongs to. -/
def stalledAccess : State :=
  { ptu :=
      { fifo := List.replicate 64 (entry .lane0 0 0 0 0xF), stall := some ⟨entry .lane1 0 0 0 0xF, 15⟩
        access := some (anAccess true 0xF) } }

theorem witness_StepRunsTheQueue :
    ({ pending := [.por 0] } : State).pending = .por 0 :: [] ∧ bare.pending = [] := ⟨rfl, rfl⟩
theorem witness_SramChangesOnlyAtCompletion_others :
    ∃ t, exec (.uPortRead 5 0 0xF) bare = .next t ∧ (Instr.uPortRead 5 0 0xF).reachesSram = false := ⟨_, rfl, rfl⟩
theorem witness_SramChangesOnlyAtCompletion_access :
    ∃ s t : State, s.ptu.access = some (anAccess true 0x7) ∧ exec (.controllerAccessDone 0) s = .next t ∧
      ∀ n : Fin 4, (anAccess true 0x7).write = true → (anAccess true 0x7).be[n] = true →
        0x80007 * 4 + 3 ≠ (anAccess true 0x7).addr.toNat * 4 + n.val :=
  ⟨{ ptu := { access := some (anAccess true 0x7), sport := .controller } }, _, rfl, rfl, by decide⟩
theorem witness_SramChangesOnlyAtCompletion_part :
    ∃ s t : State, s.ptu.sport = .part 0x2000 7 ∧ exec (.partWriteDone 0) s = .next t ∧
      ¬ wordBytes (addressOf s.ptu.frameSelect 0x2000) 0x8004 :=
  ⟨{ ptu := { sport := .part 0x2000 7 } }, _, rfl, rfl, by unfold wordBytes; decide⟩
theorem witness_LaneEventsLeaveOtherLane :
    ∃ t, (part (laneIn .run .locked)).Settled ∧ (part (laneIn .run .locked)).cmu.slot = none ∧
      exec (.triggerEdge 2000 .lane0) (part (laneIn .run .locked)) = .next t :=
  ⟨_, by decide, rfl, rfl⟩
theorem witness_ResetsClearIntakeAndTable : ringLane (entry .lane1 0 0 0 0xF).offset = .lane1 := by decide
theorem witness_PorTakesResetValues : (part (laneIn .run .locked)).Settled ∧ (part (laneIn .run .locked)).ptu.stall = none ∧
    stalledAccess.Settled ∧ stalledAccess.ptu.stall ≠ none ∧ stalledAccess.ptu.sport = .free := by decide
theorem witness_CrstnKeepsRecipesAndRecoveries : (part (laneIn .run .locked)).Settled ∧ stalledAccess.Settled := by decide
theorem witness_ReleaseAnnouncesReset_por :
    State.powerUp.Settled ∧ State.powerUp.rwu = {} ∧ State.powerUp.ptu.access = none ∧ State.powerUp.ptu.sport = .free ∧
      State.powerUp.porAsserted = true ∧ State.powerUp.crstAsserted = false := by decide
theorem witness_ReleaseAnnouncesReset_crstn :
    let s : State := { crstAsserted := true }
    s.Settled ∧ s.rwu = {} ∧ s.ptu.access = none ∧ s.ptu.sport = .free ∧ s.crstAsserted = true ∧ s.porAsserted = false := by
  decide

/-- Both inputs asserted, neither asserted. -/
theorem witness_ReleaseAnnouncesReset_both :
    let s : State := { porAsserted := true, crstAsserted := true }
    s.Settled ∧ s.ptu.access = none ∧ s.ptu.sport = .free ∧ s.porAsserted = true ∧ s.crstAsserted = true ∧ bare.Settled ∧
      bare.porAsserted = false ∧ bare.crstAsserted = false := by decide
/-- What is on its way at a release: a part write before a write and before a read that wait, and a write on the S-port. -/
theorem witness_ReleaseAnnouncesReset_traffic (write : Bool) :
    let s : State := { porAsserted := true, ptu := { access := some (anAccess write 0x3), sport := .part 0x2000 7 } }
    let t : State := { crstAsserted := true, ptu := { access := some (anAccess true 0x3), sport := .controller } }
    s.Settled ∧ s.porAsserted = true ∧ s.ptu.access = some (anAccess write 0x3) ∧ s.ptu.sport = .part 0x2000 7 ∧
      (anAccess write 0x3).addr ≠ frameAddress s (0x2000 : FrameOffset).toNat ∧ ¬ wordBytes (anAccess write 0x3).addr 0 ∧
      t.Settled ∧ t.crstAsserted = true ∧ t.porAsserted = false ∧ ({ t with porAsserted := true } : State).Settled := by
  revert write; unfold wordBytes; decide

/-! ### The U-port and the SRAM -/

/-- The part with frame select 2, ready for an access. -/
def port2 : State := { ptu := { frameSelect := 2 } }
theorem port2_ready : port2.PortReady := ⟨by decide, by decide, by decide⟩
theorem bare_ready : bare.PortReady := ⟨by decide, by decide, by decide⟩

/-- The boundary offsets of the unwatched places (10.7: 60007 lies in frame 1). -/
theorem witness_UnwatchedAccessesOnlyCarried :
    port2.PortReady ∧ (0x60007 : WordAddr).toNat / 262144 ≠ port2.ptu.frameSelect.toNat ∧
      (9 ≤ (0x80009 : WordAddr).toNat % 262144 ∧ (0x80009 : WordAddr).toNat % 262144 < 0x400) ∧
      (0x800 ≤ (0x9FFFF : WordAddr).toNat % 262144 ∧ (0x9FFFF : WordAddr).toNat % 262144 < 0x20000) ∧
      (0x20000 ≤ (0xA1C00 : WordAddr).toNat % 262144 ∧ 3072 ≤ (0xA1C00 : WordAddr).toNat % 262144 % 4096 ∧
        (0xA1C00 : WordAddr).toNat % 262144 % 4096 < 4095) ∧
      (0x20000 ≤ (0xA03FF : WordAddr).toNat % 262144 ∧ (0xA03FF : WordAddr).toNat % 262144 % 4096 < 1024) ∧
      ((0x80007 : WordAddr).toNat % 262144 = 7 ∧ (0xE : Enables) ≠ 0xF) := ⟨port2_ready, by decide⟩
theorem witness_MailboxWordsTaken : bare.PortReady := bare_ready
theorem witness_StagingWriteMergesAndEndsCommit :
    ({ rtu := { commit := .scanning 0 1 0 }, cmu := { executing := some (aCommand 0x10) } } : State).PortReady ∧
      ({ lane1 := laneIn .run .locked, rtu := { commit := .swapping 3 1 }, cmu := { executing := some (aCommand 0x10) } } : State).PortReady ∧
      bare.PortReady ∧ bare.cmu.slot = none ∧ bare.rtu.commit = .idle :=
  ⟨⟨by decide, by decide, by decide⟩, ⟨by decide, by decide, by decide⟩, bare_ready, rfl, rfl⟩
/-- The FIFO holding 63 and 64 entries. -/
def holding (n : Nat) : State := { ptu := { fifo := List.replicate n (entry .lane0 0 0 0 0xF) } }
theorem witness_ScanWriteAdmittedOrStalled :
    (holding 63).PortReady ∧ (holding 63).ptu.stall = none ∧ (holding 63).ptu.fifo.length < 64 ∧ (holding 64).PortReady ∧
      64 ≤ (holding 64).ptu.fifo.length ∧ (0 : BitVec 12).toNat = 0 ∧
      (1024 ≤ (3071 : BitVec 12).toNat ∧ (3071 : BitVec 12).toNat < 3072) ∧ (4095 : BitVec 12).toNat = 4095 :=
  ⟨⟨by decide, by decide, by decide⟩, rfl, by decide, ⟨by decide, by decide, by decide⟩, by decide, by decide⟩
theorem witness_BusyPortAndResetObserveNothing :
    ({ ptu := { access := some (anAccess true 0xF) } } : State).Settled ∧
      ({ ptu := { access := some (anAccess true 0xF) } } : State).ptu.access.isSome ∧ State.powerUp.Settled ∧
      State.powerUp.ptu.access = none ∧ State.powerUp.inReset = true ∧ bare.Settled ∧ bare.ptu.access = none := by decide
theorem witness_ControllerAccessReachesSram (write : Bool) :
    let s : State := { ptu := { access := some (anAccess write 0x5), sport := .controller } }
    s.Settled ∧ s.ptu.sport = .controller ∧ s.ptu.access = some (anAccess write 0x5) ∧ (anAccess write 0x5).write = write ∧
      bare.Settled ∧ bare.ptu.sport ≠ .controller := by
  revert write; decide
/-- The part with a unit in progress and its word on the S-port. -/
def reporting (k : UnitKind) (left : Nat) (c : Cmu) : State :=
  { ptu := { sport := .part 0x2000 5 }, rwu := { unit := some ⟨k, [], left⟩ }, cmu := c }
theorem witness_PartWordReachesSramAndIsReported :
    (reporting .commonBlock 2 {}).Settled ∧ (reporting .commonBlock 2 {}).ptu.sport = .part 0x2000 5 ∧
      (reporting (.ringRecord 1) 1 {}).Settled ∧ (reporting (.ringRecord 1) 1 {}).cmu.slot = none ∧
      (reporting (.laneBlock .lane1 false) 1 {}).Settled ∧
      (reporting (.laneBlock .lane0 true) 1 { executing := some (aCommand 0x30) }).Settled ∧
      ((reporting (.laneBlock .lane0 true) 1 { executing := some (aCommand 0x30) }).rwu.report .lane1).owed = false ∧
      (aCommand 0x30).code = 0x30 ∧ (reporting .captureDump 1 { executing := some (aCommand 0x31) }).Settled ∧
      bare.Settled ∧ (∀ o data, bare.ptu.sport ≠ .part o data) :=
  ⟨by decide, rfl, by decide, rfl, by decide, by decide, rfl, rfl, by decide, by decide, by simp [bare]⟩
/-- The first of two owed lane blocks, and a word whose unit a reset has abandoned. -/
theorem witness_PartWordReachesSramAndIsReported_others :
    let s : State :=
      { reporting (.laneBlock .lane0 true) 1 { executing := some (aCommand 0x30) } with
        rwu := { unit := some ⟨.laneBlock .lane0 true, [], 1⟩, report0 := { owed := true }, report1 := { owed := true } } }
    let t : State := { ptu := { sport := .part 0x2000 5 } }
    s.Settled ∧ s.cmu.slot = none ∧ s.ptu.sport = .part 0x2000 5 ∧ s.rwu.unit = some ⟨.laneBlock .lane0 true, [], 1⟩ ∧
      (s.rwu.report .lane1).owed = true ∧ t.Settled ∧ t.rwu.unit = none := by decide
/-- The part with one word that entered the writer queue at time 0, and an access that waits. -/
def arbitrating (access : Option Access) (q : List QueuedWord) : State := { ptu := { access := access, writerQueue := q } }
theorem witness_ArbiterChoosesInOrder :
    (reporting .commonBlock 2 {}).Settled ∧ (reporting .commonBlock 2 {}).ptu.sport ≠ .free ∧
      (arbitrating (some (anAccess true 0xF)) [⟨0x2000, 0, 0⟩]).Settled ∧
      (arbitrating (some (anAccess true 0xF)) [⟨0x2000, 0, 0⟩]).ptu.guarded = false ∧
      (∀ w, (arbitrating (some (anAccess true 0xF)) [⟨0x2000, 0, 0⟩]).ptu.writerQueue.head? = some w →
        0 + 799 < w.entered + 800) ∧
      (0 : Nat) + 800 ≤ 0 + 800 ∧ (arbitrating none []).Settled ∧ (arbitrating none []).ptu.writerQueue = [] ∧
      (arbitrating none [⟨0x2000, 0, 0⟩]).Settled ∧ (arbitrating none [⟨0x2000, 0, 0⟩]).ptu.access = none :=
  ⟨by decide, by decide, by decide, rfl, by simp [arbitrating], by decide, by decide, rfl, by decide, rfl⟩
/-- A word has been placed before the access that waits; the access is held in a stall; what the S-port carries. -/
theorem witness_ArbiterChoosesInOrder_others :
    let s : State := { ptu := { access := some (anAccess true 0xF), guarded := true } }
    let t : State := { stalledAccess with ptu := { stalledAccess.ptu with writerQueue := [⟨0x2000, 0, 0⟩] } }
    let u : State := { ptu := { access := some (anAccess true 0xF), sport := .controller } }
    s.Settled ∧ s.ptu.sport = .free ∧ s.ptu.access.isSome ∧ s.ptu.stall = none ∧ s.ptu.guarded = true ∧ t.Settled ∧
      t.ptu.sport = .free ∧ t.ptu.writerQueue = [⟨0x2000, 0, 0⟩] ∧ t.ptu.stall.isSome ∧ stalledAccess.ptu.writerQueue = [] ∧
      u.ptu.sport = .controller ∧ u.ptu.access = some (anAccess true 0xF) := by decide
/-- A snapshot and a capture to wait with. -/
def aSnapshot (age : Nat) : Snapshot := { Snapshot.afterPor with age := age }
def aCapture : Capture := ⟨.lane0, 0, .off, true, {}, 0, none, [], [], .replicate 64 {}, 1⟩
/-- The writer idle with what waits. -/
def writing (w : Rwu) (ci : BitVec 9) : State := { rwu := w, cmu := { consumerIndex := ci } }
theorem witness_WriterChoosesAndHands :
    (writing { queue := [⟨.resetDone 0 false, 0⟩] } 0).Settled ∧
      (writing { queue := [⟨.resetDone 0 false, 0⟩] } 0).rwu.producerIndex + 1 ≠ 0 ∧
      (writing { commonWaiting := some 4, queue := [⟨.resetDone 0 false, 0⟩], producerIndex := 511 } 0).rwu.producerIndex + 1 = 0 ∧
      bare.rwu.waitingBlocks = [] ∧ (reporting .commonBlock 2 {}).Settled ∧ (reporting .commonBlock 2 {}).rwu.unit.isSome ∧
      (∀ u, (reporting .commonBlock 2 {}).rwu.unit = some u → u.toHand = []) ∧
      ({ rwu := { unit := some ⟨.commonBlock, [(0x2000, 0)], 16⟩ } } : State).Settled :=
  ⟨by decide, by decide, by decide, by decide, by decide, by decide, by simp [reporting], by decide⟩
/-- The four blocks wait together with three ages; then with one age; then a full writer queue. -/
theorem witness_WriterChoosesAndHands_blocks :
    let all : Nat → Rwu := fun a =>
      { commonWaiting := some 4, report0 := { snapshot := some (aSnapshot 4) }, report1 := { snapshot := some (aSnapshot a) }
        capture := some aCapture }
    let full : State :=
      { rwu := { unit := some ⟨.commonBlock, [(0x2000, 0)], 16⟩ }, ptu := { writerQueue := List.replicate 16 ⟨0x2000, 0, 0⟩ } }
    oldestBlock (all 3).waitingBlocks = some (1, .dump) ∧
      oldestBlock { all 3 with capture := none }.waitingBlocks = some (3, .laneBlock .lane1) ∧
      oldestBlock { all 4 with capture := none }.waitingBlocks = some (4, .common) ∧ (writing (all 3) 0).Settled ∧
      ((all 3).report .lane1).snapshot = some (aSnapshot 3) ∧ (all 3).capture = some aCapture ∧ full.Settled ∧
      16 ≤ full.ptu.writerQueue.length := by decide
/-- A record is made with 23 records queued, and with 24 at the drop counts 254 and 255; the next that joins carries the count. -/
theorem witness_WriterChoosesAndHands_records :
    (queued 23).rwu.queue.length < 24 ∧ 24 ≤ (queued 24).rwu.queue.length ∧
      (let full : Nat → State := fun n => { queued 24 with rwu := { (queued 24).rwu with dropCount := n } }
       let r : Record := .resetDone 0 true
       (full 254).rwu.dropCount < 255 ∧ (full 255).rwu.dropCount = 255 ∧
        ((full 254).record r).rwu.dropCount = 255 ∧ ((full 255).record r).rwu.dropCount = 255 ∧
        ((full 255).record r).rwu.droppedTotal = 1 ∧
        ({ full 255 with rwu := { (full 255).rwu with queue := [] } }.record r).rwu.queue = [⟨r, 255⟩]) := by decide
theorem witness_BlockUnitsOrderedAndFormed :
    oldestBlock [(4, .common), (4, .dump)] = some (4, .common) ∧ oldestBlock [(5, .common), (4, .dump)] = some (4, .dump) ∧
      oldestBlock [] = none := by decide
/-- The blocks wait two by two; a capture with full tables. -/
theorem witness_BlockUnitsOrderedAndFormed_forms :
    ({ commonWaiting := some 4, capture := some aCapture } : Rwu).waitingBlocks = [(4, .common), (1, .dump)] ∧
      ({ report0 := { snapshot := some (aSnapshot 9) }, report1 := { snapshot := some (aSnapshot 3) } } : Rwu).waitingBlocks =
        [(9, .laneBlock .lane0), (3, .laneBlock .lane1)] ∧
      (List.replicate 48 (piece 1 {} false)).length ≤ 48 ∧
      (List.replicate 96 ({ valve := 5, openTick := 1, closeTick := 9, tag := 0 } : Firing)).length ≤ 96 := by decide

/-! ### Go words -/

/-- The part at rest with a lane 0 and two argument words. -/
def asked (x : Lane) (a b : Word) : State := { lane0 := x, cmu := { shadow := ((Vector.replicate 7 0).set 0 a).set 1 b } }
theorem asked_ready (x : Lane) (a b : Word) (h : (asked x a b).Settled) (n : Nat) (hn : n ≤ 24) :
    (asked x a b).CommandReady n :=
  { settled := h, running := rfl, free := rfl, idle := rfl, room := by simpa [asked, Config.eventQueuePlaces] using hn }
theorem queued_ready : (queued 21).CommandReady 3 :=
  { settled := by decide, running := rfl, free := rfl, idle := rfl, room := by decide }
theorem witness_LaneStartSeedsTheLane :
    let s := asked { table := some table48 } 65535 50000
    s.CommandReady 2 ∧ (s.lane .lane0).mode = .off ∧ (s.lane .lane0).table ≠ none ∧ s.cmu.shadow[0].toNat ≤ 65535 ∧
      2500 ≤ s.cmu.shadow[1].toNat ∧ s.cmu.shadow[1].toNat ≤ 50000 :=
  ⟨asked_ready _ _ _ (by decide) _ (by decide), rfl, by simp [asked, State.lane], by decide, by decide, by decide⟩
theorem witness_HoldAndResumeChangeMode :
    (asked (laneIn .run .locked) 0 0).CommandReady 2 ∧ (asked (laneIn .hold .locked) 0 0).CommandReady 2 ∧
      (asked (laneIn .drain .locked) 0 0).CommandReady 2 :=
  ⟨asked_ready _ _ _ (by decide) _ (by decide), asked_ready _ _ _ (by decide) _ (by decide),
    asked_ready _ _ _ (by decide) _ (by decide)⟩
theorem witness_LaneStopCancelsAndAbandons :
    (asked (laneIn .fault .idle) 0 0).CommandReady 3 ∧ ((asked (laneIn .fault .idle) 0 0).lane .lane0).mode ≠ .off ∧
      (queued 21).CommandReady 3 :=
  ⟨asked_ready _ _ _ (by decide) _ (by decide), by decide, queued_ready⟩
theorem witness_TableCommitBeginsScan :
    (asked {} 0 1).CommandReady 0 ∧ 1 ≤ (asked {} 0 1).cmu.shadow[1].toNat ∧ (asked {} 0 3).cmu.shadow[1].toNat ≤ 3 :=
  ⟨asked_ready _ _ _ (by decide) _ (by decide), by decide, by decide⟩
theorem witness_ValveTestOpensTheValve :
    let s := asked (laneIn .hold .locked) 63 65535
    s.CommandReady 1 ∧ (s.lane .lane0).mode = .hold ∧ (s.lane .lane0).table = some table48 ∧
      (s.lane .lane0).supplyGood = true ∧ s.cmu.shadow[0].toNat = (63 : Fin 64).val ∧ s.cmu.shadow[1].toNat = 65535 ∧
      ((s.lane .lane0).valve 63).phase = .closed ∧ ((s.lane .lane0).valve 63).pending = none :=
  ⟨asked_ready _ _ _ (by decide) _ (by decide), rfl, rfl, rfl, by decide, by decide, by decide, by decide⟩
theorem witness_StatsSnapshotCopiesAndClears :
    (asked {} 1 0).CommandReady 0 ∧ (asked {} 1 0).cmu.shadow[0].toNat = 1 ∧ (asked {} 0 0).cmu.shadow[0].toNat ≤ 1 :=
  ⟨asked_ready _ _ _ (by decide) _ (by decide), by decide, by decide⟩
/-- A CMU whose waiting capture has reached its line boundary. -/
def dueCapture : Cmu := { executing := some (aCommand 0x31), captureWait := some .lane0, captureDue := true }
theorem witness_CaptureTakenOrWaits :
    (asked (laneIn .run .locked) 0 0).CommandReady 0 ∧ (asked (laneIn .run .waiting) 0 0).CommandReady 0 ∧
      dueCapture.captureWait = some .lane0 ∧ dueCapture.captureDue = true ∧ dueCapture.executing = some (aCommand 0x31) :=
  ⟨asked_ready _ _ _ (by decide) _ (by decide), asked_ready _ _ _ (by decide) _ (by decide), by decide⟩
/-- The part with a lane 0 whose capture waits and has not reached its line boundary. -/
def waitingCapture (x : Lane) : State := { lane0 := x, now := 2000, cmu := { dueCapture with captureDue := false } }
theorem waitingCapture_sound (x : Lane) (hm : x.mode.sorting = true) (hc : x.clock.state.runs) (hs : x.supplyGood = true)
    (hd : x.drainDue = false) : (waitingCapture x).ModeSound := by
  have v : ∀ v : Fin 64, (({} : Lane).valve v) = {} := by decide +kernel
  have i : ({} : Lane).Inert := ⟨rfl, rfl, rfl, fun w => by rw [v w]; exact ⟨rfl, rfl⟩⟩
  refine { modes := fun l => ?_, supply := fun l => ?_, reset := fun h => ?_ }
  · cases l
    · exact { off := fun h => by simp [waitingCapture, State.lane] at h; simp [h, LaneMode.sorting] at hm
              hold := fun h => by simp [waitingCapture, State.lane] at h; simp [h, LaneMode.sorting] at hm
              fault := fun h => by simp [waitingCapture, State.lane] at h; simp [h, LaneMode.sorting] at hm
              sorting := fun _ => hc, due := fun _ h => by simp [waitingCapture, State.lane, hd] at h }
    · exact { off := fun _ => ⟨i, rfl⟩, hold := nofun, fault := nofun, sorting := nofun, due := nofun }
  · cases l
    · intro h; simp [waitingCapture, State.lane, hs] at h
    · intro h; cases h
  · cases h
/-- Lane 0 in DRAIN at line 100, tick 3, whose last window closes at tick 4. -/
def lastWindow : Lane :=
  { laneIn .drain .locked with
    drainCount := 1
    valves := (Vector.replicate 64 {}).set 5
      { phase := .boost ⟨.firing { valve := 5, openTick := 1500, closeTick := 1604, tag := 90 }, 900, 500, 3000, 8, 50⟩ } }
/-- A capture that waits at an edge that leaves the mode, at an entry, at the other lane's edge. -/
theorem witness_CaptureTakenOrWaits_boundary :
    let s := waitingCapture (laneIn .run .locked)
    s.ModeSound ∧ s.Settled ∧ s.cmu.slot = none ∧ s.cmu.captureWait = some .lane0 ∧ s.cmu.executing = some (aCommand 0x31) ∧
      (∃ t, exec (.triggerEdge 4000 .lane0) s = .next t ∧ (t.lane .lane0).mode = (s.lane .lane0).mode) ∧
      (∃ t, exec (.entryLeavesFifo 0) s = .next t) ∧ ∃ t, exec (.triggerEdge 4000 (LaneId.other .lane0)) s = .next t :=
  ⟨waitingCapture_sound _ rfl (.inr (.inl rfl)) rfl rfl, by decide, rfl, rfl, rfl, ⟨_, rfl, by decide +kernel⟩, ⟨_, rfl⟩, _, rfl⟩
/-- A capture that waits at an edge whose ticks end the drain. -/
theorem witness_CaptureTakenOrWaits_hold :
    let s := waitingCapture lastWindow
    s.ModeSound ∧ s.Settled ∧ s.cmu.slot = none ∧
      ∃ t, exec (.triggerEdge 4000 .lane0) s = .next t ∧ (t.lane .lane0).mode = .hold :=
  ⟨waitingCapture_sound _ rfl (.inr (.inl rfl)) rfl rfl, by decide, rfl, _, rfl, by decide +kernel⟩
/-- A capture that waits at the loss of the clock, and in DRAIN_CONDITION. -/
theorem witness_CaptureTakenOrWaits_fault :
    let c : Clock := { state := .coasting, ln := 100, k := 3, pq := 80000, lineStart := 1000, nextSynthetic := some 6000, episode := 3 }
    let s := waitingCapture { laneIn .run .coasting with clock := c }
    let d := waitingCapture { laneIn .drain .locked with drainDue := true, drainCount := 1 }
    s.ModeSound ∧ s.Settled ∧ s.cmu.slot = none ∧
      (∃ t, exec (.syntheticLineStart 4000 .lane0) s = .next t ∧ (t.lane .lane0).mode = .fault) ∧
      d.cmu.captureWait = some .lane0 ∧ d.cmu.executing = some (aCommand 0x31) ∧ (d.lane .lane0).mode = .drain ∧
      (d.lane .lane0).drainDue = true :=
  ⟨waitingCapture_sound _ rfl (.inr (.inr rfl)) rfl rfl, by decide, rfl, ⟨_, rfl, by decide +kernel⟩, rfl, rfl, rfl, rfl⟩
/-- Lane 0 in HOLD with valve 63 in a phase. -/
def held (p : ValvePhase) : Lane := { laneIn .hold .locked with valves := (Vector.replicate 64 {}).set 63 ⟨p, none⟩ }
theorem witness_BadCommandsOnlyAnswered :
    (0x05 : BitVec 8) ∉ [(0x01 : BitVec 8), 0x02, 0x03, 0x04, 0x10, 0x20, 0x30, 0x31] ∧ (asked {} 65536 2499).CommandReady 1 ∧
      2 ≤ (2 : BitVec 2).toNat ∧ 3 < (asked {} 65536 4).cmu.shadow[1].toNat ∧ (asked {} 65536 4).CommandReady 1 ∧
      65535 < (asked {} 65536 2499).cmu.shadow[0].toNat ∧ (asked {} 65535 2499).CommandReady 1 ∧
      (asked {} 65535 2499).cmu.shadow[1].toNat < 2500 ∧ (asked {} 63 0).CommandReady 1 ∧
      (asked {} 63 0).cmu.shadow[1].toNat = 0 ∧ (asked {} 64 0).CommandReady 1 ∧ 63 < (asked {} 64 0).cmu.shadow[0].toNat :=
  ⟨by decide, asked_ready _ _ _ (by decide) _ (by decide), by decide, by decide, asked_ready _ _ _ (by decide) _ (by decide),
    by decide, asked_ready _ _ _ (by decide) _ (by decide), by decide, asked_ready _ _ _ (by decide) _ (by decide), by decide,
    asked_ready _ _ _ (by decide) _ (by decide), by decide⟩
theorem witness_RefusedCommandsOnlyAnswered :
    (asked {} 63 2500).CommandReady 1 ∧ ((asked {} 63 2500).lane .lane0).mode = .off ∧
      ((asked {} 63 2500).lane .lane0).table = none ∧ (asked (laneIn .fault .idle) 63 50000).CommandReady 1 ∧
      (asked (laneIn .run .locked) 63 50000).CommandReady 1 ∧ (asked (laneIn .drain .locked) 63 50000).CommandReady 1 ∧
      (asked (laneIn .hold .locked) 63 50000).CommandReady 1 ∧ (asked (laneIn .hold .locked) 63 50000).cmu.shadow[0].toNat = 63 ∧
      (asked (laneIn .hold .locked) 63 50000).cmu.shadow[1].toNat = 50000 ∧
      (asked { laneIn .hold .locked with supplyGood := false } 63 50000).CommandReady 1 ∧
      (asked (held (.boost ⟨.test 2000, 0, 500, 3000, 8, 50⟩)) 63 50000).CommandReady 1 ∧
      ((held (.boost ⟨.test 2000, 0, 500, 3000, 8, 50⟩)).valve 63).phase ≠ .closed :=
  ⟨asked_ready _ _ _ (by decide) _ (by decide), rfl, rfl, asked_ready _ _ _ (by decide) _ (by decide),
    asked_ready _ _ _ (by decide) _ (by decide), asked_ready _ _ _ (by decide) _ (by decide),
    asked_ready _ _ _ (by decide) _ (by decide), by decide, by decide, asked_ready _ _ _ (by decide) _ (by decide),
    asked_ready _ _ _ (by decide) _ (by decide), by decide +kernel⟩
theorem witness_GoWordsWaitOrSupersede :
    let s : State := { cmu := { executing := some (aCommand 0x10) } }
    let t : State := { cmu := { executing := some (aCommand 0x10), slot := some (aCommand 0x01) } }
    s.PortReady ∧ s.cmu.executing ≠ none ∧ s.cmu.slot = none ∧ t.PortReady ∧ t.cmu.slot = some (aCommand 0x01) ∧
      bare.PortReady ∧ bare.cmu.executing = none ∧ t.Settled ∧
      ∃ u, exec (.scanEnd 1024) { t with cmu := { t.cmu with slot := none } } = .next u :=
  ⟨⟨by decide, by decide, by decide⟩, by decide, rfl, ⟨by decide, by decide, by decide⟩, rfl, bare_ready, rfl, by decide, _, rfl⟩
/-! ### Intake -/

/-- An open line 100 in slot 4, every front column seen or none. -/
def anOpen (seen : Bool) : Assembly :=
  { slot := 4, header := 100, line := 100, rearMode := false, front := .replicate 1024 (if seen then some .sound else none)
    rear := .replicate 1024 none, loss := false }
/-- Lane 0 in RUN with line 100 open and E at `e`. -/
def assembling (seen : Bool) (e : LineNo) : Lane := { laneIn .run .locked with assembly := some (anOpen seen), expected := e }

/-- Lane 0 waits for its swap with a header of line 100 at the head of the FIFO. -/
def swapReady (m w : BitVec 2) : State :=
  { lane0 := laneIn .run .locked, lane1 := laneIn .run .locked, rtu := { commit := .swapping m w }
    cmu := { executing := some (aCommand 0x10) }, ptu := { fifo := [entry .lane0 0 0 0x4C4E0064 0xF] } }

theorem witness_HeaderJudgedByDistance :
    let s := feeding (laneIn .hold .locked) (entry .lane0 15 0 0x4C4E8064 0xF)
    s.Settled ∧ s.ptu.fifo = entry .lane0 15 0 0x4C4E8064 0xF :: [] ∧ s.ptu.stall = none ∧
      entryAt (entry .lane0 15 0 0x4C4E8064 0xF) .lane0 15 0 ∧ (entry .lane0 15 0 0x4C4E8064 0xF).be = 0xF ∧
      (entry .lane0 15 0 0x4C4E8064 0xF).data = 0x4C4E#16 ++ 0x8064#16 ∧ (s.lane .lane0).assembly = none ∧
      s.swapWaiting .lane0 = false ∧ (s.lane .lane0).mode = .hold :=
  ⟨by decide, rfl, rfl, by unfold entryAt; decide, rfl, by decide, rfl, rfl, rfl⟩
/-- The clauses of the header's judgement at their boundaries, with LN 100 and E 100: d 32,768, d 1 and d 0. -/
theorem witness_HeaderJudgedByDistance_distances :
    (32768 : Nat) = (100 % 65536 + 65536 - (0x8064 : BitVec 16).toNat) % 65536 ∧
      ((100 - BitVec.ofNat 32 1 : LineNo) - 100).toInt < 0 ∧ 0 ≤ ((100 - BitVec.ofNat 32 0 : LineNo) - 100).toInt := by decide
/-- A header that opens its line while a swap waits for the lane. -/
theorem witness_HeaderJudgedByDistance_swap :
    (swapReady 3 0).Settled ∧ (swapReady 3 0).swapWaiting .lane0 = true ∧ (swapReady 3 0).cmu.slot = none ∧
      entryAt (entry .lane0 0 0 0x4C4E0064 0xF) .lane0 0 0 ∧ ((swapReady 3 0).lane .lane0).assembly = none ∧
      ((swapReady 3 0).lane .lane0).mode = .run :=
  ⟨by decide, rfl, rfl, by unfold entryAt; decide, rfl, rfl⟩
theorem witness_MalformedHeaderIsStray :
    let s := feeding (assembling false 100) (entry .lane0 4 0 0x4C4E0064 0x7)
    s.Settled ∧ s.ptu.stall = none ∧ entryAt (entry .lane0 4 0 0x4C4E0064 0x7) .lane0 4 0 ∧
      (entry .lane0 4 0 0x4C4E0064 0x7).be ≠ 0xF ∧ (entry .lane0 4 0 0x4C4F0064 0xF).data.extractLsb' 16 16 ≠ 0x4C4E#16 ∧
      (s.lane .lane0).mode = .run :=
  ⟨by decide, rfl, by unfold entryAt; decide, by decide, by decide, rfl⟩
theorem witness_PixelStoredOrStray :
    let s := feeding (assembling false 100) (entry .lane0 4 2047 0 0xF)
    s.Settled ∧ s.ptu.stall = none ∧ entryAt (entry .lane0 4 2047 0 0xF) .lane0 4 (1024 + 1023) ∧
      entryAt (entry .lane0 4 2048 0 0xF) .lane0 4 (2048 + 0) ∧ (s.lane .lane0).mode = .run ∧
      (s.lane .lane0).assembly = some (anOpen false) ∧ (anOpen false).slot = 4 ∧ (anOpen false).rearMode = false ∧
      ((laneIn .run .locked).assembly = none) :=
  ⟨by decide, rfl, by unfold entryAt; decide, by unfold entryAt; decide, rfl, rfl, rfl, rfl, rfl⟩
/-- An end write that is partial, one into another slot than the open one, and one with no line open. -/
theorem witness_PixelStoredOrStray_end :
    let e := entry .lane0 5 4095 0x4C4E0064 0xF
    let s := feeding (assembling false 100) e
    let t := feeding (laneIn .drain .locked) e
    s.Settled ∧ s.ptu.stall = none ∧ entryAt e .lane0 5 4095 ∧ (s.lane .lane0).mode = .run ∧
      (s.lane .lane0).assembly = some (anOpen false) ∧ (anOpen false).slot ≠ 5 ∧ t.Settled ∧ (t.lane .lane0).mode = .drain ∧
      (t.lane .lane0).assembly = none ∧ (entry .lane0 4 4095 0x4C4E0064 0x7).be ≠ 0xF ∧
      entryAt (entry .lane0 4 4095 0x4C4E0064 0x7) .lane0 4 4095 :=
  ⟨by decide, rfl, by unfold entryAt; decide, rfl, rfl, by decide, by decide, rfl, rfl, by decide, by unfold entryAt; decide⟩
/-- 2.6, the yellowed kernel: L 160, Yd 55, Q 54, cell 662, in word 165 of the map. -/
theorem witness_PixelStoredOrStray_class :
    (160 : Nat) = (180 + 2 * 170 + 120 + 2) / 4 ∧ (55 : Int) = max (-128) (min 127 ((((180 + 170) / 2 : Nat) : Int) - 120)) ∧
      54 = min 255 (64 * 150 / (160 + 16)) ∧ 662 = 160 / 8 * 32 + (55 + 128) / 8 ∧ 165 = 662 / 4 ∧
      table48.colourMap[165].toNat / 2 ^ (8 * (662 % 4)) % 256 ≤ 6 := by decide +kernel
theorem witness_EntriesDroppedOutsideRuns :
    (feeding (laneIn .fault .idle) (entry .lane1 0 0 0 0)).Settled ∧ entryAt (entry .lane1 0 0 0 0) .lane1 0 0 ∧
      ((feeding (laneIn .fault .idle) (entry .lane1 0 0 0 0)).lane .lane1).mode = .off ∧
      (feeding (laneIn .hold .locked) (entry .lane0 0 4095 0 0)).Settled ∧ entryAt (entry .lane0 0 4095 0 0) .lane0 0 4095 :=
  ⟨by decide, by unfold entryAt; decide, rfl, by decide, by unfold entryAt; decide⟩
/-- A complete line with no skipped line before it, and one behind three skipped lines. -/
theorem witness_CompleteLineHandedAsData :
    let s := feeding (assembling true 100) (entry .lane0 4 4095 0x4C4E0064 0xF)
    let t := feeding (assembling true 97) (entry .lane0 4 4095 0x4C4E0064 0xF)
    s.Settled ∧ s.cmu.slot = none ∧ s.ptu.stall = none ∧ entryAt (entry .lane0 4 4095 0x4C4E0064 0xF) .lane0 4 4095 ∧
      (s.lane .lane0).assembly = some (anOpen true) ∧ ((anOpen true).line - (s.lane .lane0).expected).toInt = 0 ∧
      (entry .lane0 4 4095 0x4C4E0064 0xF).data = 0x4C4E#16 ++ (anOpen true).header ∧
      (anOpen true).expectedCount ≤ (anOpen true).seen ∧ (anOpen true).loss = false ∧ t.Settled ∧
      ((anOpen true).line - (t.lane .lane0).expected).toInt = 3 :=
  ⟨by decide, rfl, rfl, by unfold entryAt; decide, rfl, by decide, by decide, by decide +kernel, rfl, by decide, by decide⟩
/-- The merge with rear mode on, offset +3 (2.6): column 1,023 is paired with 3, column 2 with none. -/
theorem witness_CompleteLineHandedAsData_merge :
    (3 : Int) = 1023 - 1023 + 3 ∧ (∀ c : Fin 1024, (c.val : Int) ≠ 1023 - 2 + 3) ∧
      (mergeViews { anOpen true with rearMode := true } 3)[1023]? = some .sound :=
  ⟨by decide, fun c => by have := c.isLt; omega, by decide +kernel⟩
theorem witness_DamagedLineHandedAsVoid :
    let s := feeding (assembling false 97) (entry .lane0 4 4095 0x4C4E0065 0xF)
    s.Settled ∧ s.cmu.slot = none ∧ s.rwu.queue.length < 24 ∧ ((anOpen false).line - (s.lane .lane0).expected).toInt = 3 ∧
      (entry .lane0 4 4095 0x4C4E0065 0xF).data ≠ 0x4C4E#16 ++ (anOpen false).header ∧
      (anOpen false).seen < (anOpen false).expectedCount ∧
      ({ anOpen true with loss := true } : Assembly).expectedCount ≤ ({ anOpen true with loss := true } : Assembly).seen :=
  ⟨by decide, rfl, by decide, by decide, by decide, by decide +kernel, by decide +kernel⟩
theorem witness_RestartDamagesOpenLine :
    let s := feeding (assembling false 100) (entry .lane0 6 0 0x4C4E0066 0xF)
    s.Settled ∧ s.ptu.stall = none ∧ entryAt (entry .lane0 6 0 0x4C4E0066 0xF) .lane0 6 0 ∧
      (entry .lane0 6 0 0x4C4E0066 0xF).data = 0x4C4E#16 ++ 0x0066#16 ∧ (s.lane .lane0).mode = .run ∧
      (s.lane .lane0).assembly = some (anOpen false) ∧ s.cmu.slot = none :=
  ⟨by decide, rfl, by unfold entryAt; decide, by decide, rfl, rfl, rfl⟩
/-- The part with a write of lane 1 held since time 15 (10.7). -/
def stalled : State := { ptu := { fifo := List.replicate 64 (entry .lane0 0 0 0 0xF), stall := some ⟨entry .lane1 0 0 0 0xF, 15⟩ } }
theorem witness_StallEndsInLossOrAdmission :
    stalled.Settled ∧ stalled.ptu.stall = some ⟨entry .lane1 0 0 0 0xF, 15⟩ ∧ ringLane (entry .lane1 0 0 0 0xF).offset = .lane1 ∧
      15 + 200 ≤ stalled.now + 215 ∧ stalled.now + 214 < 15 + 200 ∧
      stalled.ptu.fifo = entry .lane0 0 0 0 0xF :: List.replicate 63 (entry .lane0 0 0 0 0xF) :=
  ⟨by decide, rfl, by decide, by decide, by decide, rfl⟩
/-- Lane 0 at line 100 with E at `e`, data_wait 2 and line 98 open. -/
def expiring (m : LaneMode) (e : LineNo) : Lane := { laneIn m .locked with expected := e, assembly := some { anOpen false with line := 98 } }
/-- LN − E at data_wait and below it; one line expires at E 98 and two at E 97, the second one open. -/
theorem witness_ExpiryKeepsLinesWithinWait :
    let x := expiring .run 98
    (x.clock.ln - x.expected).toInt = 2 ∧ x.mode = .run ∧ (x.block.dataWait : Int) ≤ 2 ∧ (1 : Int) < x.block.dataWait ∧
      ((expiring .drain 99).clock.ln - (expiring .drain 99).expected).toInt = 1 ∧
      max 1 ((2 : Int) - x.block.dataWait + 1).toNat = 1 ∧ max 1 ((3 : Int) - x.block.dataWait + 1).toNat = 2 ∧
      (lateEnd .lane0 x).1.assembly = none ∧ (lateEnd .lane0 (expiring .run 97)).1.assembly ≠ none ∧
      (expiredLines .lane0 2 (expiring .run 97)).1.expected = 99 ∧
      (expiredLines .lane0 2 (expiring .run 97)).2 = [.lineFault .lane0 .lateEnd 4 100 98 0] ∧
      (expiring .hold 98).mode = .hold ∧ (expiring .fault 98).mode = .fault := by decide +kernel

/-! ### Spans, placement, the line clock -/

/-- A firing of valve 5. -/
def aFiring (opens closes : TickTime) : Firing := { valve := 5, openTick := opens, closeTick := closes, tag := 100 }
/-- An object of a slot, first line and span, of one sound column. -/
def spanning (slot : Nat) (line : LineNo) (first last : Nat) : OpenObject :=
  { slotId := slot, firstLine := line, lastLine := 1000, spanStart := first, spanEnd := last, cmin := first, cmax := last, area := 1
    counts := { sound := 1 } }
/-- A table of two objects and a line whose one run touches both; decision functions for touching. -/
theorem witness_RunsAreTheMaximalStretches (objects : List OpenObject) (runs : List LineRun) :
    let table := [spanning 1 4294967295 0 4, spanning 0 0 10 12]
    inTableOrder table ∧ (table.map OpenObject.slotId).Nodup ∧
      (∀ o ∈ table, o.slotId < 48 ∧ ((1001 : LineNo) - o.firstLine).toNat < 2147483648) ∧
      (∃ untouched : OpenObject → Bool, ∀ o, untouched o = true ↔ ∀ q ∈ runs, ¬touching q o) ∧
      ∃ alone : LineRun → Bool, ∀ q, alone q = true ↔ ∀ o ∈ objects, ¬touching q o :=
  ⟨⟨by decide, by decide⟩, by decide, by decide,
    by classical exact ⟨fun o => decide (∀ q ∈ runs, ¬touching q o), fun _ => decide_eq_true_iff⟩,
    by classical exact ⟨fun q => decide (∀ o ∈ objects, ¬touching q o), fun _ => decide_eq_true_iff⟩⟩
/-- A run touches the object that ends or begins in the next column, and not the one beyond it. -/
theorem witness_RunsAreTheMaximalStretches_touching :
    touching ⟨5, 8, {}⟩ (spanning 0 0 0 4) ∧ touching ⟨5, 8, {}⟩ (spanning 0 0 9 12) ∧ ¬touching ⟨5, 8, {}⟩ (spanning 0 0 0 3) ∧
      ¬touching ⟨5, 8, {}⟩ (spanning 0 0 10 12) :=
  ⟨⟨5, by decide⟩, ⟨8, by decide⟩, by rintro ⟨c, h⟩; simp [spanning] at h; omega,
    by rintro ⟨c, h⟩; simp [spanning] at h; omega⟩
theorem witness_DecisionsInOrder : cases.longPolicy ≤ 2 := by decide
/-- The table of 4.8 with valve 0 at column 500. -/
def shifted : ActiveTable := { table48 with boundaries := Vector.ofFn fun v => 500 + v.val }
theorem witness_RejectSpanAndWindow :
    valveSpan table48 1020 1023 = some ⟨63, 1, false⟩ ∧ ((8096 : TickTime) - 8097).toInt < 0 ∧
      0 ≤ ((8096 : TickTime) - 8096).toInt ∧ 4 ≤ ((8101 : TickTime) - (8096 + 1)).toInt ∧
      ((8100 : TickTime) - (8096 + 1)).toInt < 4 := by decide +kernel
/-- The spans of three valves, of six, and left of valve 0. -/
theorem witness_RejectSpanAndWindow_span :
    (∀ u v : Fin 64, u < v → table48.boundaries[u] < table48.boundaries[v]) ∧
      ((296 : Nat) : Int) = max ((300 : Int) - table48.block.margin) table48.boundaries[0] ∧
      334 = min (330 + table48.block.margin) 1023 ∧ covers table48 18 296 ∧ covers table48 20 334 ∧ covers table48 31 496 ∧
      covers table48 37 594 ∧ min (490 + shifted.block.margin) 1023 < shifted.boundaries[0] := by
  unfold covers; decide +kernel
/-- Lane 0 at line 100, tick 3: the window of a line has three outcomes of the lateness test, by the flight delay. -/
def flying (d : Nat) : Lane := { laneIn .run .locked with table := some { table48 with block := { table48.block with flightDelay := d } } }
theorem witness_RejectSpanAndWindow_lateness :
    valveSpan (flying 16).activeTable 300 330 = some ⟨18, 3, false⟩ ∧
      lateness (tickTime 100 3) ((flying 16).window 100 100) = .stands ∧
      lateness (tickTime 100 3) ((flying 16).window 99 99) = .truncated ∧
      lateness (tickTime 100 3) ((flying 16).window 90 90) = .late ∧
      [(18 : Fin 64), 19, 20].map Fin.val = (List.range 3).map (18 + ·) ∧
      decideObject cases (piece 180 { dark := 12 } false) = .reject .dark ∧ decideObject cases (piece 9 {} false) = .fragment := by
  decide +kernel
/-- Untracked runs of a line, under each overflow policy. -/
theorem witness_RejectSpanAndWindow_overflow :
    let runs : List LineRun := [⟨3, 5, {}⟩, ⟨9, 9, {}⟩]
    runs.head? = some ⟨3, 5, {}⟩ ∧ runs.getLast? = some ⟨9, 9, {}⟩ ∧ 4 = (runs.map fun q => q.last - q.first + 1).sum ∧
      (laneIn .run .locked).grade.overflowPolicy ≠ 1 ∧
      ({ laneIn .run .locked with table := some { table48 with grade := { cases with overflowPolicy := 1 } } } : Lane).grade.overflowPolicy = 1 := by
  decide
/-- Lane 0 with rec_ticks 160 and max_on_ticks 480 and one queued window of valve 5, 2,000..2,100. -/
def oneWindow : Lane := { laneIn .run .locked with firings := [aFiring 2000 2100] }
theorem witness_PlacementJoinsOrAdds :
    entriesOf (aFiring 2000 2100).valve (laneIn .run .locked).firings = [] ∧
      ((laneIn .run .locked).valve 5).pending = none ∧ ((laneIn .run .locked).valve 5).firingOpen = none ∧
      ((laneIn .run .locked).valve 5).phase = .closed ∧ entriesOf 5 oneWindow.firings = [] ++ [aFiring 2000 2100] ∧
      0 ≤ ((2000 : TickTime) - 2000).toInt ∧
      0 < ((2261 : TickTime) - (2100 + BitVec.ofNat 36 oneWindow.recTicks)).toInt ∧
      ((2260 : TickTime) - (2100 + BitVec.ofNat 36 oneWindow.recTicks)).toInt ≤ 0 ∧
      ((2000 : TickTime) + BitVec.ofNat 36 oneWindow.maxOnTicks - 2481).toInt < 0 := by decide +kernel
/-- A firing before the queued window: its bound is Tnow + 1, the rest of an entry before it, or a recovery's end. -/
theorem witness_PlacementJoinsOrAdds_earlier :
    let rests := { oneWindow with valves := (Vector.replicate 64 {}).set 5 { phase := .recover 0 1000 (some 1990) } }
    ((1999 : TickTime) - 2000).toInt < 0 ∧ earliestOpen oneWindow 5 none = 1604 ∧
      earliestOpen oneWindow 5 (some (aFiring 1700 1710)) = 1871 ∧ earliestOpen rests 5 none = 1990 ∧
      ((1993 : TickTime) - (1990 + 4)).toInt < 0 ∧ 0 ≤ ((1994 : TickTime) - (1990 + 4)).toInt := by decide +kernel
/-- Valve 5 resting until 2,000, open from a firing, with a pending entry; entry 5 last in a queue. -/
theorem witness_PlacementJoinsOrAdds_states :
    let at5 : Valve → Lane := fun y => { laneIn .run .locked with valves := (Vector.replicate 64 {}).set 5 y }
    let o : Opening := ⟨.firing (aFiring 1500 1700), 0, 500, 3000, 8, 50⟩
    ((at5 { phase := .recover 0 1000 (some 2000) }).valve 5).phase = .recover 0 1000 (some 2000) ∧
      ((1999 : TickTime) - 2000).toInt < 0 ∧ ((2003 : TickTime) - (2000 + 4)).toInt < 0 ∧
      0 ≤ ((2004 : TickTime) - (2000 + 4)).toInt ∧ ((at5 { phase := .boost o }).valve 5).phase = .boost o ∧
      ((at5 { phase := .sustain o 3 true }).valve 5).phase = .sustain o 3 true ∧ o.source = .firing (aFiring 1500 1700) ∧
      ((at5 { pending := some (aFiring 1500 1700) }).valve 5).pending = some (aFiring 1500 1700) ∧
      (∀ g ∈ [{ aFiring 1 2 with valve := 6 }], g.valve ≠ (aFiring 1 2).valve) := by decide +kernel
theorem witness_AcceptedEdgesStartLines_first :
    (part (laneIn .run .waiting)).Settled ∧ (part (laneIn .run .waiting)).cmu.slot = none ∧
      (part (laneIn .run .waiting)).rwu.queue.length < 24 ∧ ((part (laneIn .run .waiting)).lane .lane0).clock.state = .waiting := by
  decide
/-- The distances 4,374 and 5,625 stand at the ends of the clauses, with P 5,000. -/
theorem witness_AcceptedEdgesStartLines_locked :
    let s := part (laneIn .run .locked)
    s.Settled ∧ s.cmu.slot = none ∧ (s.lane .lane0).clock.state = .locked ∧ (s.lane .lane0).clock.k ≤ 15 ∧
      5625 = s.now + 4625 - (s.lane .lane0).clock.lineStart ∧ 5625 ≤ 9 * ((s.lane .lane0).clock.pq / 16) / 8 ∧
      2500 = s.now + 1500 - (s.lane .lane0).clock.lineStart ∧ 4374 < 7 * ((s.lane .lane0).clock.pq / 16) / 8 := by decide
/-- The ticks that a line start hands over: those left after tick 3, none after tick 15, and with the stamp 6,000 at 6,625. -/
theorem witness_AcceptedEdgesStartLines_ticks :
    ticksLeft { k := 3 } 15 = [4, 5, 6, 7, 8, 9, 10, 11, 12, 13, 14, 15] ∧ ticksLeft { k := 15 } 15 = [] ∧
      ticksReached 6000 80000 6625 = [0, 1, 2] ∧ ticksReached 6000 80000 6000 = [0] ∧
      (waitingCapture lastWindow).Settled ∧ (waitingCapture lastWindow).cmu.slot = none := by decide +kernel
/-- The line start that makes LN − E 2 hands line 99, the 1,024th line, and takes the INTERVAL snapshot; with one line fewer
processed it takes none. -/
theorem witness_AcceptedEdgesStartLines_interval :
    let s := fun n => part { laneIn .run .locked with expected := 99, counters := { linesProcessed := n } }
    (s 1023).Settled ∧ (s 1022).Settled ∧ (s 1023).cmu.slot = none ∧
      (∃ t, exec (.triggerEdge 4000 .lane0) (s 1023) = .next t ∧ (t.lane .lane0).mode = .run ∧
        (t.rwu.report .lane0).snapshot.map (fun p => (p.cause, p.counters.linesProcessed)) = some (.interval, 1024)) ∧
      ∃ t, exec (.triggerEdge 4000 .lane0) (s 1022) = .next t ∧ (t.rwu.report .lane0).snapshot = none :=
  ⟨by decide, by decide, rfl, ⟨_, rfl, by decide +kernel, by decide +kernel⟩, _, rfl, by decide +kernel⟩
theorem witness_IgnoredEdgesAndTicks :
    ((part (laneIn .fault .idle)).lane .lane0).clock.state = .idle ∧ (part (laneIn .fault .idle)).Settled ∧
      (part (laneIn .run .coasting)).Settled ∧ ((part (laneIn .run .coasting)).lane .lane0).clock.state = .coasting ∧
      (part (laneIn .run .coasting)).now + 1499 < ((part (laneIn .run .coasting)).lane .lane0).clock.lineStart + 2500 := by decide
/-- A lane with Pq 320,000 (6.9): half a period is 10,000 reference clocks. -/
def slowLane : Lane := { laneIn .run .coasting with clock := { state := .coasting, ln := 701, k := 4, pq := 320000, lineStart := 1000 } }
theorem witness_CoastingEdgeRelocks :
    (part slowLane).Settled ∧ (part slowLane).cmu.slot = none ∧ ((part slowLane).lane .lane0).clock.state = .coasting ∧
      1000 + 9999 = (part slowLane).now + 8999 ∧ 9999 < 320000 / 16 / 2 ∧ 1000 + 10000 = (part slowLane).now + 9000 ∧
      320000 / 16 / 2 ≤ 10000 ∧ ((part slowLane).lane .lane0).mode ≠ .drain ∧ (queued 23).rwu.queue.length < 24 ∧
      (part { slowLane with mode := .drain }).Settled ∧ ((part { slowLane with mode := .drain }).lane .lane0).mode = .drain ∧
      (queued 21).rwu.queue.length + 3 ≤ 24 := by decide
/-- Lane 0 at line 100, tick 3, with an opening of valve 5 that closes at tick 4, and a due entry of valve 6. -/
def ticking (p : ValvePhase) : Lane :=
  { laneIn .run .locked with
    firings := [{ aFiring 1604 1700 with valve := 6 }]
    valves := ((Vector.replicate 64 {}).set 5
      { phase := .boost ⟨.firing (aFiring 1500 1604), 900, 500, 3000, 8, 50⟩ }).set 6 { phase := p } }
theorem witness_TickTakesDueEntries :
    let s := part (ticking .closed)
    s.Settled ∧ (s.lane .lane0).clock.state = .locked ∧ (s.lane .lane0).clock.k < 15 ∧
      (s.lane .lane0).clock.lineStart + ((s.lane .lane0).clock.k + 1) * (s.lane .lane0).clock.pq / 256 ≤ s.now + 250 ∧
      (1604 : TickTime) = BitVec.ofNat 36 ((s.lane .lane0).clock.ln.toNat * 16 + ((s.lane .lane0).clock.k + 1)) ∧
      (s.lane .lane0).firings.filter (fun f => f.openTick == 1604) = [{ aFiring 1604 1700 with valve := 6 }] ∧
      (∀ f ∈ [{ aFiring 1604 1700 with valve := 6 }], f.valve ≠ 5) ∧
      [{ aFiring 1604 1700 with valve := 6 }].filter (fun g => g.valve == 6) = [{ aFiring 1604 1700 with valve := 6 }] ∧
      (s.lane .lane0).supplyGood = true ∧
      [{ aFiring 1604 1700 with valve := 6 }, aFiring 1604 1700].Pairwise (fun f g => f.valve ≠ g.valve) ∧
      s.now + 249 < (s.lane .lane0).clock.lineStart + ((s.lane .lane0).clock.k + 1) * (s.lane .lane0).clock.pq / 256 ∧
      ({ part (ticking .closed) with lane0 := { ticking .closed with supplyGood := false } } : State).Settled := by
  decide +kernel
/-- The valves a due entry can find after the closes of tick 1,604: an opening and a pending entry that close at it; then closed,
open from a firing, under test with the slot empty, resting with it occupied. -/
theorem witness_TickTakesDueEntries_valves :
    let o : Opening := ⟨.firing (aFiring 1500 1700), 900, 500, 3000, 8, 50⟩
    let x := laneIn .run .locked
    let late := aFiring 1610 1650
    closedAtTick x 2250 1604 { phase := .boost { o with source := .firing (aFiring 1500 1604) } } =
        { phase := .recover 2250 1000 (some 1764) } ∧
      closedAtTick x 2250 1604 { phase := .recover 0 1000 none, pending := some (aFiring 1500 1604) } =
        { phase := .recover 0 1000 none } ∧
      (valveAfterDue x 2250 late { phase := .boost o }).firingOpen = some { aFiring 1500 1700 with joined := 1 } ∧
      valveAfterDue x 2250 late { phase := .sustain { o with source := .test 9 } 0 true } =
        { phase := .sustain { o with source := .test 9 } 0 true, pending := some late } ∧
      busyAtDue { phase := .recover 0 1000 none, pending := some (aFiring 1500 1700) } = true ∧
      busyAtDue { phase := .boost o, pending := none } = false := by decide +kernel
/-- Lane 0 in LOCKED with its coast deadline at 6,625. -/
def deadlineLane : Lane :=
  { laneIn .run .locked with clock := { state := .locked, ln := 100, k := 3, pq := 80000, lineStart := 1000, coastDeadline := some 6625 } }
theorem witness_CoastDeadlineBeginsEpisode :
    (part deadlineLane).Settled ∧ ((part deadlineLane).lane .lane0).clock.state = .locked ∧
      ((part deadlineLane).lane .lane0).clock.coastDeadline = some 6625 ∧ 6625 ≤ (part deadlineLane).now + 4625 := by decide
/-- Lane 0 in COASTING with its next synthetic time at 6,000 and an episode count; coast_limit is 3. -/
def episodeLane (n : Nat) : Lane :=
  { laneIn .run .coasting with
    clock := { state := .coasting, ln := 100, k := 3, pq := 80000, lineStart := 1000, nextSynthetic := some 6000, episode := n } }
theorem witness_SyntheticLineOrLoss :
    (part (episodeLane 2)).Settled ∧ (part (episodeLane 2)).rwu.queue.length + 3 ≤ 24 ∧
      ((part (episodeLane 2)).lane .lane0).clock.nextSynthetic = some 6000 ∧ 6000 ≤ (part (episodeLane 2)).now + 4000 ∧
      (episodeLane 2).clock.episode < (episodeLane 2).block.coastLimit ∧
      (episodeLane 3).block.coastLimit ≤ (episodeLane 3).clock.episode := by decide
/-- The loss of a clock with one firing queued and one valve open. -/
theorem witness_SyntheticLineOrLoss_loss :
    let x := { episodeLane 3 with firings := (ticking .closed).firings, valves := (ticking .closed).valves }
    (part x).Settled ∧ x.firings.length = 1 ∧ x.countValves (fun y => y.pending.isSome) = 0 ∧
      x.countValves (fun y => y.opening.isSome) = 1 ∧ x.block.coastLimit ≤ x.clock.episode := by decide +kernel

/-! ### Valves and supply -/

/-- An opening of a test of 2,000 µs that began at time 0. -/
def testOpening : Opening := ⟨.test 2000, 0, 500, 3000, 8, 50⟩
/-- Lane 0 with valve 63 in a phase. -/
def withValve (p : ValvePhase) (pending : Option Firing) : Lane :=
  { laneIn .run .locked with valves := (Vector.replicate 64 {}).set 63 ⟨p, pending⟩ }
theorem witness_BoostAndCarrierTimers :
    (part (withValve (.boost testOpening) none)).Settled ∧
      (((part (withValve (.boost testOpening) none)).lane .lane0).valve 63).phase = .boost testOpening ∧
      0 + 50 * 500 ≤ 2000 + 23000 ∧ 2000 + 22999 < 0 + 50 * 500 ∧
      (part (withValve (.sustain testOpening 1000 true) none)).Settled ∧
      (((part (withValve (.sustain testOpening 1000 true) none)).lane .lane0).valve 63).phase = .sustain testOpening 1000 true ∧
      1000 + 50 * 50 * 8 / 16 ≤ 2000 + 250 ∧ 2000 + 249 < 1000 + 50 * 50 * 8 / 16 ∧ 2000 + 1499 < 1000 + 50 * 50 ∧
      1000 + 50 * 50 ≤ 2000 + 1500 := by decide +kernel
theorem witness_OpeningAndRecoveryEnds :
    (((part (withValve (.boost testOpening) none)).lane .lane0).valve 63).opening = some testOpening ∧
      testOpening.began + 50 * testOpening.maxOnUs ≤ 2000 + 148000 ∧ testOpening.source = .test 2000 ∧
      testOpening.began + 50 * 2000 ≤ 2000 + 98000 ∧
      (((part (withValve (.recover 0 1000 none) (some (aFiring 1 9)))).lane .lane0).valve 63).phase = .recover 0 1000 none ∧
      (((part (withValve (.recover 0 1000 none) (some (aFiring 1 9)))).lane .lane0).valve 63).pending = some (aFiring 1 9) ∧
      0 + 50 * 1000 ≤ 2000 + 48000 := by decide +kernel
theorem witness_SupplyDropEndsOpenings :
    let s := part (withValve (.boost testOpening) none)
    s.Settled ∧ s.inReset = false ∧ (s.lane .lane0).supplyGood = true ∧
      (s.lane .lane0).countValves (fun y => y.opening.isSome) = 1 ∧
      (s.lane .lane0).countValves (fun y => y.pending.isSome) = 0 := by decide +kernel
theorem witness_SupplyReturnRecordsEpisode :
    let s := part { laneIn .run .locked with supplyGood := false, episodeMissed := 3 }
    s.Settled ∧ s.inReset = false ∧ (s.lane .lane0).supplyGood = false := by decide

/-! ### Recipes, drains, sound states -/

/-- The words of the smallest valid recipe for lane 0: the grade block at 100, the boundaries 0..63 at 200, the lane block at
240. -/
def smallWords : List Word :=
  List.replicate 266 0 ++ [1, 1, 8] ++ List.replicate 243 0 ++ (List.range 64).map (BitVec.ofNat 32) ++
    [0, 0, 16, 0, 0, 0, 100, 1, 20, 200, 500, 1, 1, 1, 0] ++ List.replicate 433 0
def smallBank : Vector Word 1024 := ⟨smallWords.toArray, by decide +kernel⟩
/-- A bank valid for both lanes, with faults of 7.7: stone_q_hi, b17 of lane 0, and lane 1's data_wait at 40. -/
def faulty (hi b17 : Word) : Vector Word 1024 :=
  let both := smallWords.take 0x280 ++ (smallWords.drop 0x200).take 0x80 ++ List.replicate 256 0
  ((((⟨both.toArray, by decide +kernel⟩ : Vector Word 1024).set 0x100 80).set 0x101 hi).set 0x211 b17).set 0x2CB 40
/-- 7.7, what each lane mask finds: the first fault, then with it mended lane 0's boundary or lane 1's data_wait, then with that mended
too only the latter. -/
theorem test_validation_detail :
    ([3, 1, 2].map fun m => lowestInvalid (faulty 70 16) m 0x102) = [some 0x101, some 0x101, some 0x101] ∧
      stagedWordValid (faulty 120 16) 1 0x101 = true ∧
      ([1, 2, 3].map fun m => stagedWordValid (faulty 120 16) m 0x211) = [false, true, false] ∧
      ([1, 2, 3].map fun m => stagedWordValid (faulty 120 17) m 0x211) = [true, true, true] ∧
      ([1, 2, 3].map fun m => stagedWordValid (faulty 120 17) m 0x2CB) = [true, false, false] := by decide +kernel
/-- The part at the end of a scan of a bank for lane 0 with an expected signature. -/
def scanned (bank : Vector Word 1024) (e : Word) : State :=
  { rtu := { staged := bank, commit := .scanning e 1 0 }, cmu := { executing := some (aCommand 0x10) } }
theorem witness_ScanEndJudgesCommit_valid :
    (scanned smallBank 0).Settled ∧ (scanned smallBank 0).cmu.slot = none ∧ 0 + 1024 ≤ (scanned smallBank 0).now + 1024 ∧
      (∀ j < 1024, stagedWordValid smallBank 1 j = true) := by decide +kernel
/-- R139: an all-zero staged bank fails at word 10A. -/
theorem witness_ScanEndJudgesCommit_invalid :
    stagedWordValid (.replicate 1024 0) 1 0x10A = false ∧ ∀ j < 0x10A, stagedWordValid (.replicate 1024 0) 1 j = true := by
  decide +kernel
theorem witness_ScanEndJudgesCommit_signature :
    signature (.replicate 1024 0) ≠ 0 ∧ maskHas 1 .lane0 = true ∧ maskHas 1 .lane1 = false := by decide +kernel
/-- All targeted lanes swap at once; one waits; the scan has not ended; there is none. -/
theorem witness_ScanEndJudgesCommit_lanes :
    swapsAtOnce ({ mode := .hold } : Lane) ∧ swapsAtOnce (laneIn .run .waiting) ∧ ¬swapsAtOnce (laneIn .run .locked) ∧
      (scanned smallBank 0).now + 1023 < 0 + 1024 ∧ bare.Settled ∧ (∀ e m k, bare.rtu.commit ≠ .scanning e m k) := by
  refine ⟨.inl rfl, .inr rfl, ?_, by decide, by decide, by simp [bare]⟩
  unfold swapsAtOnce; decide
theorem witness_LaneSwapCopiesStagedBank :
    (swapReady 3 0).Settled ∧ (swapReady 3 0).cmu.slot = none ∧ maskHas 3 .lane0 = true ∧ maskHas 0 .lane0 = false ∧
      (swapReady 3 0).swapWaiting .lane0 = true ∧ (swapReady 3 0).rtu.commit = .swapping 3 0 ∧
      (swapReady 3 0).cmu.executing = some (aCommand 0x10) ∧ (0 : BitVec 2) ||| laneBit .lane0 ≠ 3 ∧ (swapReady 1 0).Settled ∧
      (0 : BitVec 2) ||| laneBit .lane0 = 1 ∧ ((swapReady 3 0).lane .lane0).mode = .run ∧
      (swapReady 2 0).swapWaiting .lane0 = false ∧ (swapReady 2 0).Settled := by decide
/-- The header of line 100 brings lane 0 to its swap point, and so does the end word of a damaged line and of a complete one
behind skipped ones; the header does not bring lane 1, nor a pixel lane 0. -/
theorem witness_LaneSwapCopiesStagedBank_entries :
    headerAccepted (laneIn .run .locked) .lane0 (entry .lane0 0 0 0x4C4E0064 0xF) 0 0x64 100 ∧
      bringsSwap (assembling false 100) .lane0 (entry .lane0 4 4095 0x4C4E0064 0xF) ∧
      bringsSwap (assembling true 97) .lane0 (entry .lane0 4 4095 0x4C4E0064 0xF) ∧
      ¬bringsSwap (laneIn .run .locked) .lane1 (entry .lane0 0 0 0x4C4E0064 0xF) ∧
      ¬bringsSwap (laneIn .run .locked) .lane0 (entry .lane0 0 1024 0 0xF) := by
  refine ⟨⟨by unfold entryAt; decide, rfl, by decide, 0, by decide⟩,
    .inr ⟨anOpen false, rfl, by unfold entryAt; decide, rfl, .inr (.inl (by decide +kernel))⟩,
    .inr ⟨anOpen true, rfl, by unfold entryAt; decide, rfl, .inr (.inr (.inr (by decide)))⟩, ?_, ?_⟩ <;>
  · rintro (⟨slot, h, n, he, -⟩ | ⟨a, ha, he, -⟩)
    · unfold entryAt at he; revert he; revert slot; decide
    · cases ha
/-- Lane 0 in HOLD waits for its swap. -/
theorem witness_LaneSwapCopiesStagedBank_outside :
    let s : State := { swapReady 1 0 with lane0 := laneIn .hold .locked }
    (s.lane .lane0).mode.sorting = false ∧ s.cmu.slot = none ∧ s.cmu.captureWait = none ∧ s.swapWaiting .lane0 = true ∧
      (∀ k, (s.lane k).mode = .drain → (s.lane k).drainDue = false) ∧ s.swapWaiting .lane1 = false :=
  ⟨rfl, rfl, rfl, rfl, fun k => by cases k <;> decide, rfl⟩
theorem witness_DrainConditionEntersHold :
    let s := part { laneIn .drain .locked with drainDue := true, drainCount := 1 }
    s.cmu.captureWait = none ∧ s.rwu.queue.length < 24 ∧ (s.lane .lane0).mode = .drain ∧ (s.lane .lane0).drainDue = true ∧
      ((part (laneIn .drain .locked)).lane .lane0).drainDue = false := by decide
theorem witness_DrainConditionEntersHold_found :
    let s := feeding { assembling true 100 with mode := .drain } (entry .lane0 4 4095 0x4C4E0064 0xF)
    s.Settled ∧ s.inReset = false ∧ s.cmu.slot = none ∧ ringLane (entry .lane0 4 4095 0x4C4E0064 0xF).offset = .lane0 ∧
      (∃ t, exec (.entryLeavesFifo 0) s = .next t) ∧ ∃ t, exec (.tick 0 .lane0) s = .next t :=
  ⟨by decide, rfl, rfl, by decide, ⟨_, rfl⟩, _, rfl⟩
/-- A line start in DRAIN that hands the last line is found drained; one whose last tick ends the drain is in HOLD, with nothing
found. -/
theorem witness_DrainConditionEntersHold_lines :
    let s := part { laneIn .drain .locked with expected := 99 }
    let w := part lastWindow
    s.Settled ∧ s.inReset = false ∧ s.cmu.slot = none ∧ w.Settled ∧
      (∃ t, exec (.triggerEdge 4000 .lane0) s = .next t ∧ (t.lane .lane0).drainDue = true) ∧
      ∃ t, exec (.triggerEdge 4000 .lane0) w = .next t ∧ (t.lane .lane0).mode = .hold ∧ (t.lane .lane0).drainDue = false :=
  ⟨by decide, rfl, rfl, by decide, ⟨_, rfl, by decide +kernel⟩, _, rfl, by decide +kernel, by decide +kernel⟩
/-- Every invariant holds of the part at rest, which takes a step. -/
theorem witness_StepKeepsBounds : bare.Bounded ∧ bare.sram.wf ∧ ∃ t, step bare = .next t :=
  ⟨{ path := ⟨by decide, by decide, by simp [bare], by simp [bare], by simp [bare]⟩, queue := by decide, drops := by decide
     lane0 := ⟨by decide, by decide, by decide, by decide⟩, lane1 := ⟨by decide, by decide, by decide, by decide⟩ },
    ⟨.nil, by simp [bare]⟩, _, rfl⟩
theorem witness_StepKeepsModePromises : bare.ModeSound ∧ ∃ t, step bare = .next t := by
  have v : ∀ v : Fin 64, (({} : Lane).valve v) = {} := by decide +kernel
  have i : ({} : Lane).Inert := ⟨rfl, rfl, rfl, fun w => by rw [v w]; exact ⟨rfl, rfl⟩⟩
  refine ⟨{ modes := fun l => ?_, supply := fun l => ?_, reset := fun h => ?_ }, _, rfl⟩
  · cases l <;> exact { off := fun _ => ⟨i, rfl⟩, hold := nofun, fault := nofun, sorting := nofun, due := nofun }
  · cases l <;> intro h <;> cases h
  · cases h
/-- A LANE_START that changes the mode, from a sound state. -/
theorem witness_StepKeepsModePromises_change :
    let s := asked { table := some table48 } 65535 50000
    s.ModeSound ∧ s.Settled ∧ s.cmu.slot = none ∧
      ∃ t, exec (.laneStart 0 0 0 7) s = .next t ∧ (t.lane .lane0).mode ≠ (s.lane .lane0).mode := by
  have v : ∀ v : Fin 64, (({} : Lane).valve v) = {} := by decide +kernel
  have i : ({ table := some table48 } : Lane).Inert := ⟨rfl, rfl, rfl, fun w => by
    have h : ({ table := some table48 } : Lane).valve w = {} := v w
    rw [h]; exact ⟨rfl, rfl⟩⟩
  have j : ({} : Lane).Inert := ⟨rfl, rfl, rfl, fun w => by rw [v w]; exact ⟨rfl, rfl⟩⟩
  refine ⟨{ modes := fun l => ?_, supply := fun l => ?_, reset := fun h => ?_ }, by decide, rfl, _, rfl, by decide +kernel⟩
  · cases l
    · exact { off := fun _ => ⟨i, rfl⟩, hold := nofun, fault := nofun, sorting := nofun, due := nofun }
    · exact { off := fun _ => ⟨j, rfl⟩, hold := nofun, fault := nofun, sorting := nofun, due := nofun }
  · cases l <;> intro h <;> cases h
  · cases h
theorem witness_StepKeepsDecisionsBalanced : bare.Balanced ∧ ∃ t, step bare = .next t :=
  ⟨⟨by unfold Counters.Balanced; decide, by unfold Counters.Balanced; decide, by simp [bare], by simp [bare]⟩, _, rfl⟩
theorem witness_StepKeepsTablesSound : bare.lane0.TableSound ∧ bare.lane1.TableSound ∧ ∃ t, step bare = .next t :=
  ⟨⟨by decide, by decide, by decide, by decide, by decide, by decide⟩,
    ⟨by decide, by decide, by decide, by decide, by decide, by decide⟩, _, rfl⟩

/-! ### One step of the spec's worked sequences -/

/-- What a lane shows after a command, from a part. -/
def after (c : Instr) (s : State) (f : State → Bool) : Bool :=
  match exec c s with
  | .next t => f t
  | .fault _ => false
  | .refused _ => false

/-- Lane 0 of 6.9 at line 1,000, started at time 0, with coast_limit 3. -/
def at1000 (c : Clock) : State := { lane0 := { laneIn .run .locked with expected := 2000, clock := c } }
/-- 6.9: the coast deadline at 5,625 takes synthetic line 1,001 with stamp 5,000 and its ticks 0, 1, 2. -/
theorem test_coast_deadline :
    after (.coastDeadline 5625 .lane0)
      (at1000 { state := .locked, ln := 1000, k := 15, pq := 80000, lineStart := 0, coastDeadline := some 5625 })
      (fun t => t.lane0.clock.state == .coasting && t.lane0.clock.ln == 1001 && t.lane0.clock.lineStart == 5000 &&
        t.lane0.clock.k == 2 && t.lane0.clock.episode == 1) = true := by decide +kernel
/-- Line 1,003 of 6.9 in COASTING, stamped 15,000, with its tick 8 taken. -/
def at1003 : Clock :=
  { state := .coasting, ln := 1003, k := 8, pq := 80000, lineStart := 15000, episode := 3, nextSynthetic := some 20000 }
/-- 6.9: the edge at 16,200 is a glitch. -/
theorem test_glitch_in_coasting :
    after (.triggerEdge 16200 .lane0) (at1000 at1003)
      (fun t => t.lane0.counters.glitches == 1 && t.lane0.clock == at1003) = true := by decide +kernel
/-- 6.9: the edge at 17,600 locks to line 1,004 with its deadline at 23,225. -/
theorem test_relock_new_line :
    after (.triggerEdge 17600 .lane0) (at1000 at1003)
      (fun t => t.lane0.clock.state == .locked && t.lane0.clock.ln == 1004 && t.lane0.clock.k == 0 &&
        t.lane0.clock.coastDeadline == some 23225 && t.lane0.clock.episode == 0 &&
        t.rwu.queue.map QueuedRecord.record == [.clockEvent .lane0 .locked (some .newLine) 3 1004 5000]) = true := by
  decide +kernel
/-- 6.9: with the episode count at coast_limit the synthetic start due at 20,000 loses the clock. -/
theorem test_clock_lost :
    after (.syntheticLineStart 20000 .lane0) (at1000 at1003)
      (fun t => t.lane0.mode == .fault && t.lane0.clock.ln == 1003 &&
        t.rwu.queue.map QueuedRecord.record == [.clockEvent .lane0 .lost none 3 1003 5000,
          .modeChange .lane0 .run .fault .clockLost 0 1003]) = true := by decide +kernel
/-- 6.9: lane 1 re-anchors at 26,000 with its deadline at 48,500. -/
theorem test_re_anchor :
    after (.triggerEdge 26000 .lane0)
      (at1000 { state := .coasting, ln := 701, k := 4, pq := 320000, lineStart := 20000, episode := 1, nextSynthetic := some 40000 })
      (fun t => t.lane0.clock.ln == 701 && t.lane0.clock.k == 4 && t.lane0.clock.coastDeadline == some 48500 &&
        t.lane0.clock.lineStart == 26000) = true := by decide +kernel
/-- 6.9: an edge at M 4,000 is a jitter edge: it starts a line and leaves Pq. -/
theorem test_jitter_edge :
    after (.triggerEdge 4000 .lane0) (at1000 { state := .locked, ln := 1000, k := 12, pq := 80063, lineStart := 0 })
      (fun t => t.lane0.counters.jitter == 1 && t.lane0.clock.pq == 80063 && t.lane0.clock.ln == 1001) = true := by
  decide +kernel
/-- 1.9: line 103 is expired with LATE_END at the line start that makes LN − E 2. -/
theorem test_late_end :
    after (.triggerEdge 5000 .lane0)
      { lane0 := { laneIn .run .locked with
          clock := { state := .locked, ln := 104, k := 15, pq := 80000 }, expected := 103
          assembly := some { anOpen false with slot := 7, header := 103, line := 103 } } }
      (fun t => t.lane0.expected == 104 && t.lane0.assembly == none && t.lane0.counters.linesVoid == 1 &&
        t.lane0.counters.linesDamaged == 1 && t.rwu.queue.map QueuedRecord.record == [.lineFault .lane0 .lateEnd 7 103 103 0]) =
      true := by decide +kernel
/-- 1.9, with line 101 missing: the end write of line 102 hands void 101, then line 102, here INCOMPLETE. -/
theorem test_skipped_line :
    after (.entryLeavesFifo 0)
      (feeding { laneIn .run .locked with
          expected := 101, clock := { state := .locked, ln := 102, k := 3, pq := 80000 }
          assembly := some { anOpen false with slot := 6, header := 102, line := 102 } } (entry .lane0 6 4095 0x4C4E0066 0xF))
      (fun t => t.lane0.expected == 103 && t.lane0.counters.linesProcessed == 2 && t.lane0.counters.linesVoid == 2 &&
        t.lane0.counters.linesSkipped == 1) = true := by decide +kernel
/-- 3.9, its columns moved 100 to the left: line 1000 makes two objects in the places 0 and 1. -/
theorem test_first_objects :
    (trackLine { maxArea := 600, maxLines := 8 } 1000
        (List.replicate 5 .sound ++ List.replicate 5 .bg ++ List.replicate 3 .sound) []).table.map
        (fun o => (o.slotId, o.spanStart, o.spanEnd, o.area, o.counts.sound)) = [(0, 0, 4, 5, 5), (1, 10, 12, 3, 3)] := by
  decide +kernel
/-- R46: a run that touches both objects merges them into the leftmost one's place. -/
theorem test_merge :
    ((trackLine { maxArea := 600, maxLines := 8 } 1001 (List.replicate 13 .dark)
        [{ slotId := 1, firstLine := 1000, lastLine := 1000, spanStart := 0, spanEnd := 4, cmin := 0, cmax := 4, area := 5
           counts := { sound := 5 } },
         { slotId := 0, firstLine := 999, lastLine := 1000, spanStart := 10, spanEnd := 12, cmin := 9, cmax := 12, area := 6
           counts := { sound := 6 } }]).table.map
        fun o => (o.slotId, o.firstLine, o.lastLine, o.area, o.merged)) = [(1, 999, 1001, 24, true)] := by
  decide +kernel
/-- 10.7: the write held since time 15 is lost at 215 and marks the open line. -/
theorem test_stall_limit :
    after (.stallLimit 215)
      { lane0 := assembling false 100
        ptu := { fifo := List.replicate 64 (entry .lane0 0 0 0 0xF), stall := some ⟨entry .lane0 4 1487 0 0xF, 15⟩ } }
      (fun t => t.ptu.stall == none && t.lane0.counters.lostWrites == 1 && t.ptu.fifo.length == 64 &&
        (t.lane0.assembly.map Assembly.loss == some true)) = true := by decide +kernel
/-- 10.7: a head word of 800 reference clocks goes before the controller access that waits. -/
theorem test_starvation_guard :
    after (.sportArbitration 800) (arbitrating (some (anAccess true 0xF)) [⟨0x1008, 9, 0⟩])
      (fun t => t.ptu.sport == .part 0x1008 9) = true ∧
    after (.sportArbitration 799) (arbitrating (some (anAccess true 0xF)) [⟨0x1008, 9, 0⟩])
      (fun t => t.ptu.sport == .controller) = true := by decide
/-- 10.7: with nine words of that age one goes before the access, then the access goes. -/
theorem test_guard_places_one_word :
    after (.sportArbitration 800) (arbitrating (some (anAccess true 0xF)) (List.replicate 9 ⟨0x1008, 9, 0⟩)) (fun t =>
      after (.partWriteDone 1) t fun u => after (.sportArbitration 1) u fun w =>
        w.ptu.sport == .controller && w.ptu.writerQueue.length == 8) = true := by decide
/-- R10, R134: the end word of a damaged line, with a swap that waits, is one intake event: the damage, then the swap that completes
the commit, then the void line. -/
theorem test_swap_after_damage :
    after (.laneSwap 0 .lane0)
      { swapReady 1 0 with lane0 := assembling false 100, ptu := { fifo := [entry .lane0 4 4095 0x4C4E0064 0xF] } }
      (fun t => t.lane0.expected == 101 && t.lane0.counters.linesVoid == 1 && t.rtu.commit == .idle &&
        t.rwu.queue.map QueuedRecord.record == [.lineFault .lane0 .incomplete 4 100 100 0, .commandDone 0x10 0 0 .ok 1]) =
      true := by decide +kernel
/-- R36, R13, R55: expiry of line 98 takes the swap while line 99 is open, which stays open with the swap noted; the object open at
the swap is handed by the void line, MIXED. -/
theorem test_expiry_swap_with_open_line :
    after (.triggerEdge 5000 .lane0)
      { swapReady 1 0 with
        lane0 :=
          { laneIn .run .locked with
            clock := { state := .locked, ln := 99, k := 15, pq := 80000 }, expected := 98
            assembly := some { anOpen false with line := 99 }, objects := [{ spanning 0 97 0 4 with counts := { stone := 1 } }] }
        rtu := { commit := .swapping 1 0, staged := (smallBank.set 0x24B 4).set 0x102 1 } }
      (fun t => t.lane0.expected == 99 && t.lane0.assembly.map (fun a => (a.line, a.mixed)) == some (99, true) && t.lane0.objects == [] &&
        t.rwu.queue.map (fun q => match q.record with
          | .objectRejected _ r => r.mixed
          | _ => false) == [false, true]) = true := by decide +kernel
/-- R48, R36: a new object has its four flags clear; those that a line open across a swap has formed are then marked MIXED. -/
theorem test_new_objects_clear :
    let r := trackLine { maxArea := 600, maxLines := 8 } 1000 [.sound, .bg, .bg, .stone] []
    r.table.map (fun o => (o.mixed, o.merged, o.long, o.cluster)) = [(false, false, false, false), (false, false, false, false)] ∧
      (r.markFormed true).table.map OpenObject.mixed = [true, true] ∧ r.markFormed false = r := by decide +kernel
/-- R36: the object that a line open across a swap forms, here force-closed and a stone, is reported MIXED. -/
theorem test_object_of_marked_line :
    (((laneIn .run .locked).dataLine .lane0 100 true [.stone]).2.map fun r => match r with
      | .objectRejected _ o => o.mixed
      | _ => false) = [true] := by decide +kernel
/-- R198: CRSTn is released while PORn stays asserted and a write is on the S-port: the path comes to rest, nothing is announced. -/
theorem test_warm_release_in_por :
    after (.crstnRelease 0)
      { porAsserted := true, crstAsserted := true, ptu := { access := some (anAccess true 0xF), sport := .controller } }
      (fun t => t.ptu.access == none && t.ptu.sport == .free && t.porAsserted && t.rwu == {}) = true := by decide
/-- R139: a commit of the all-zero bank with its signature fails at word 10A. -/
theorem test_zero_bank_invalid :
    after (.scanEnd 1024) (scanned (.replicate 1024 0) (signature (.replicate 1024 0)))
      (fun t => t.rwu.queue.map QueuedRecord.record == [.commandDone 0x10 0 0 .tableInvalid 0x10A]) = true := by decide +kernel
/-- Lane 0 of 5.8 with its recipe, period and a queue. -/
def lane58 (q : List Firing) : Lane := { laneIn .run .locked with clock := { state := .locked, ln := 1018, k := 15, pq := 80000 }, firings := q }
/-- 5.8: D joins entry 21, and A finds valve 20 busy. -/
theorem test_placements :
    ((lane58 [⟨21, 17900, 18300, 1, false, false, false, 0⟩]).place ⟨21, 18000, 18240, 2, false, false, false, 0⟩).1.firings =
        [⟨21, 17900, 18300, 1, false, false, false, 1⟩] ∧
      ((lane58 [⟨20, 17900, 18300, 1, false, false, false, 0⟩]).place ⟨20, 18392, 18796, 1000, false, false, false, 0⟩).2 =
        .missed .valveBusy := by decide +kernel
/-- 5.8: F is delayed to the recovery end tick 18,400. -/
theorem test_delayed_placement :
    (({ lane58 [] with valves := (Vector.replicate 64 {}).set 22 { phase := .recover 0 1000 (some 18400) } } : Lane).place
        ⟨22, 18350, 18650, 3, false, false, false, 0⟩).1.firings = [⟨22, 18400, 18650, 3, false, false, true, 0⟩] := by
  decide +kernel
/-- 8.8: LANE_HOLD executed in RUN makes MODE_CHANGE and COMMAND_DONE in that order. -/
theorem test_lane_hold :
    after (.laneHold 0 0 0 51) (part { laneIn .run .locked with clock := { state := .locked, ln := 1300 } })
      (fun t => t.lane0.mode == .drain && t.rwu.queue.map QueuedRecord.record ==
        [.modeChange .lane0 .run .drain .hold 51 1300, .commandDone 0x02 0 51 .ok 2]) = true := by decide +kernel
/-- 8.8: seq 43 supersedes seq 42 behind an executing commit. -/
theorem test_superseded :
    after (.statsSnapshot 0 0 0 43)
      { cmu := { executing := some (aCommand 0x10), slot := some ⟨0x31, 0, 42, .replicate 7 0⟩ } }
      (fun t => t.rwu.queue.map QueuedRecord.record == [.commandDone 0x31 0 42 .superseded 43]) = true := by decide +kernel

end Sys2Proof.Tests
end

/-! ## Proofs: scan lines and line intake (sections 1.1 to 1.3, R4, R21, R60)

First what the assertion of a reset leaves of a lane, then where an entry of the observation FIFO falls and what kind of
write it is, then what the departure of the FIFO's head does. -/
namespace Sys2Proof.Machine

/-! ### What a reset leaves of a lane -/

/-- A lane whose mode, line intake, object table and counters stand at the values of R21 and R60. -/
structure Lane.IntakeCleared (x : Lane) : Prop where
  mode : x.mode = .off
  assembly : x.assembly = none
  expected : x.expected = 0
  objects : x.objects = []
  counters : x.counters = {}

theorem Lane.afterPor_intakeCleared (x : Lane) : x.afterPor.IntakeCleared := ⟨rfl, rfl, rfl, rfl, rfl⟩
theorem Lane.afterWarm_intakeCleared (x : Lane) (now : Nat) : (x.afterWarm now).IntakeCleared :=
  ⟨rfl, rfl, rfl, rfl, rfl⟩

theorem assertPor_lane (s : State) (l : LaneId) : s.assertPor.lane l = (s.lane l).afterPor := by cases l <;> rfl
theorem assertWarm_lane (s : State) (l : LaneId) : s.assertWarm.lane l = (s.lane l).afterWarm s.now := by cases l <;> rfl

/-- In an empty object table every place is free, so the lowest free one is place 0. -/
theorem freePlace_nil : freePlace [] = some 0 := rfl

/-- An entry whose lane is OFF is dropped (R2). -/
theorem judgeEntry_of_off {s : State} {e : FifoEntry} (h : (s.lane (ringLane e.offset)).mode = .off) :
    s.judgeEntry e = s := by
  simp only [State.judgeEntry, h]

/-- Either reset answers a state with its queues empty, no write held, and both lanes cleared. -/
theorem exec_reset_clears (s : State) (after : Nat) {c : Instr} (hc : c ∈ [Instr.por after, .crstn after]) :
    ∃ t, exec c s = .next t ∧ t.ptu.fifo = [] ∧ t.ptu.stall = none ∧ t.rwu.queue = [] ∧
      ∀ l, (t.lane l).IntakeCleared := by
  obtain rfl | rfl : c = .por after ∨ c = .crstn after := by simpa using hc
  · refine ⟨(s.begin after).assertPor, rfl, rfl, rfl, rfl, fun l => ?_⟩
    exact assertPor_lane _ l ▸ Lane.afterPor_intakeCleared _
  · refine ⟨(s.begin after).assertWarm, rfl, rfl, rfl, rfl, fun l => ?_⟩
    exact assertWarm_lane _ l ▸ Lane.afterWarm_intakeCleared _ _

/-- Settles O5: a cleared lane has place 0 free, and being OFF it judges no entry. -/
theorem resetsClearIntakeAndTable : Obligations.ResetsClearIntakeAndTable := by
  intro s after c hc
  obtain ⟨t, hexec, hfifo, hstall, hqueue, hlanes⟩ := exec_reset_clears s after hc
  refine ⟨t, hexec, hfifo, hstall, hqueue, fun l => ?_⟩
  obtain ⟨hmode, hassembly, hexpected, hobjects, hcounters⟩ := hlanes l
  refine ⟨hmode, hassembly, hexpected, hobjects, hobjects ▸ freePlace_nil, hcounters, fun e he => ?_⟩
  exact judgeEntry_of_off (he ▸ hmode)

/-! ### Where an entry falls, and what kind of write it is -/

/-- An entry at a slot word of a lane's scan ring belongs to that lane (section 1.1, R184). -/
theorem ringLane_of_entryAt {e : FifoEntry} {l : LaneId} {slot : BitVec 4} {w : Nat} (h : entryAt e l slot w)
    (hw : w < 4096) : ringLane e.offset = l := by
  have hslot := slot.isLt
  unfold entryAt at h
  cases l
  · exact if_pos (by simp only [laneNumber] at h; omega)
  · exact if_neg (by simp only [laneNumber] at h; omega)

/-- Its slot word is the one it stands at (section 1.1). -/
theorem slotWordOf_of_entryAt {e : FifoEntry} {l : LaneId} {slot : BitVec 4} {w : Nat} (h : entryAt e l slot w)
    (hw : w < 4096) : (slotWordOf e.offset).toNat = w := by
  unfold entryAt at h
  simp only [slotWordOf, BitVec.extractLsb'_toNat, Nat.shiftRight_zero]
  omega

/-- A write to slot word 0 is a header if it is full and has the marker, whatever its number, and a malformed header if
not (R1, R4). -/
theorem kind_of_entryAt_zero {e : FifoEntry} {l : LaneId} {slot : BitVec 4} (h : entryAt e l slot 0) :
    e.kind = if e.be = 0xF ∧ e.data.extractLsb' 16 16 = 0x4C4E#16 then .header else .malformedHeader := by
  have hplace : slotPlace (slotWordOf e.offset) = .header := if_pos (slotWordOf_of_entryAt h (by decide))
  have hmarker : Config.lineMarker = 0x4C4E#16 := rfl
  simp only [FifoEntry.kind, hplace, fullWrite, fullEnables, markerOf, hmarker, Bool.and_eq_true, beq_iff_eq]

/-! ### The departure of the FIFO's head -/

/-- With nothing owed and no write held, the head leaves the FIFO, is judged in its lane, and the intake event ends (R187). -/
theorem exec_entryLeavesFifo {s : State} {e : FifoEntry} {rest : List FifoEntry} (after : Nat) (hs : s.Settled)
    (hfifo : s.ptu.fifo = e :: rest) (hstall : s.ptu.stall = none) :
    exec (.entryLeavesFifo after) s = .next
      (((headGone s after rest).judgeEntry e).endIntake (ringLane e.offset) (s.lane (ringLane e.offset))) := by
  have hlane (l : LaneId) : (headGone s after rest).lane l = s.lane l := by cases l <;> rfl
  have hleave : s.ptu.leave rest = { s.ptu with fifo := rest } := by simp only [Ptu.leave, hstall]
  change Host.Outcome.next (s.begin after).leaveFifo = _
  rw [begin_of_settled hs, ← hlane]
  simp only [State.leaveFifo, pass_ptu, hfifo, hleave, headGone]

/-- RUN, DRAIN and HOLD count a malformed header as a stray, and do nothing else with it (R4). -/
theorem judgeEntry_of_malformedHeader {s : State} {e : FifoEntry} {l : LaneId} (hl : ringLane e.offset = l)
    (hk : e.kind = .malformedHeader)
    (hm : (s.lane l).mode = .run ∨ (s.lane l).mode = .drain ∨ (s.lane l).mode = .hold) :
    s.judgeEntry e = s.modLane l Lane.stray := by
  rcases hm with hm | hm | hm
  · simp only [State.judgeEntry, hl, hm, State.judgeSorting, hk]
  · simp only [State.judgeEntry, hl, hm, State.judgeSorting, hk]
  · simp only [State.judgeEntry, hl, hm, State.judgeHolding, hk]

/-- An intake event that only counts a stray ends with nothing more: no line was handed and the quiet report stands. -/
theorem endIntake_stray {s : State} (l : LaneId) (h : s.cmu.executing = none → s.cmu.slot = none) :
    (s.modLane l Lane.stray).endIntake l (s.lane l) = s.modLane l Lane.stray := by
  apply endIntake_same
  · rwa [modLane_cmu]
  · rw [lane_modLane_self]; rfl
  · rw [lane_modLane_self]; rfl

/-- Settles O30: the kind of the entry says which clause applies, and a malformed header only counts a stray. -/
theorem malformedHeaderIsStray : Obligations.MalformedHeaderIsStray := by
  intro s after l slot e rest hs hfifo hstall hat
  have hkind := kind_of_entryAt_zero hat
  refine ⟨fun hbad hmode => ?_, fun hfull hmarker => hkind.trans (if_pos ⟨hfull, hmarker⟩)⟩
  have hl : ringLane e.offset = l := ringLane_of_entryAt hat (by decide)
  have hmalformed : e.kind = .malformedHeader := hkind.trans (if_neg (by tauto))
  have hlane : (headGone s after rest).lane l = s.lane l := by cases l <;> rfl
  calc exec (.entryLeavesFifo after) s
      = .next (((headGone s after rest).judgeEntry e).endIntake l (s.lane l)) := by
        rw [exec_entryLeavesFifo after hs hfifo hstall, hl]
    _ = .next (((headGone s after rest).modLane l Lane.stray).endIntake l ((headGone s after rest).lane l)) := by
        rw [judgeEntry_of_malformedHeader hl hmalformed (by rwa [hlane]), hlane]
    _ = .next ((headGone s after rest).modLane l Lane.stray) := by
        rw [endIntake_stray (s := headGone s after rest) l (slot_of_settled hs)]

end Sys2Proof.Machine

/-! ## Proofs: pixel classification (section 2, R24)

A channel is a byte of the pixel word, and R24's rounding takes bytes to bytes, so the brightness needs no saturation. -/
namespace Sys2Proof.Machine

theorem pixelRed_le (w : Word) : pixelRed w ≤ 255 := Nat.le_of_lt_succ (w.extractLsb' 16 8).isLt

theorem pixelGreen_le (w : Word) : pixelGreen w ≤ 255 := Nat.le_of_lt_succ (w.extractLsb' 8 8).isLt

theorem pixelBlue_le (w : Word) : pixelBlue w ≤ 255 := Nat.le_of_lt_succ (w.extractLsb' 0 8).isLt

/-- The largest sum, of three full channels, is 1,022, and its quarter is below 256 (R24). -/
theorem brightness_le {r g b : Nat} (hr : r ≤ 255) (hg : g ≤ 255) (hb : b ≤ 255) : brightness r g b ≤ 255 := by
  have hsum : r + 2 * g + b + 2 ≤ 1022 := by omega
  calc brightness r g b = (r + 2 * g + b + 2) / 4 := rfl
    _ ≤ 1022 / 4 := Nat.div_le_div_right hsum
    _ = 255 := rfl

/-- Settles O38: the formula is the definition of the brightness, and its range follows from that of the channels. -/
theorem brightnessFormula : Obligations.BrightnessFormula := fun w =>
  ⟨rfl, brightness_le (pixelRed_le w) (pixelGreen_le w) (pixelBlue_le w)⟩

end Sys2Proof.Machine

/-! ## Proofs: decisions in order (section 4, R62, R63)

One lemma for each check: what the decision is once every check before it has passed the object on. -/
namespace Sys2Proof.Machine

section Checks

variable {g : GradeBlock} {o : OpenObject}

/-- The model's Boolean test is the ratio test of R63: minimum on, count reached, share reached. -/
theorem ratioTest_iff {least ratio count area : Nat} :
    ratioTest least ratio count area = true ↔ ratioMet least ratio count area := by
  simp only [ratioTest, ratioMet, Bool.and_eq_true, bne_iff_ne, decide_eq_true_eq, and_assoc]

/-! ### Checks 1 to 3: STONE, FOREIGN, LONG -/

theorem decideObject_of_stone (hstone : g.stoneMin ≠ 0 ∧ g.stoneMin ≤ o.counts.stone) :
    decideObject g o = .reject .stone := if_pos hstone

section PastStone

variable (hstone : ¬(g.stoneMin ≠ 0 ∧ g.stoneMin ≤ o.counts.stone))
include hstone

theorem decideObject_of_foreign (hforeign : g.foreignMin ≠ 0 ∧ g.foreignMin ≤ o.counts.foreign) :
    decideObject g o = .reject .foreign := (if_neg hstone).trans (if_pos hforeign)

variable (hforeign : ¬(g.foreignMin ≠ 0 ∧ g.foreignMin ≤ o.counts.foreign))
include hforeign

theorem decideObject_of_long_accept (hlong : o.long = true) (hpolicy : g.longPolicy = 0) :
    decideObject g o = .accept := by
  rw [decideObject, if_neg hstone, if_neg hforeign, if_pos ⟨hlong, hpolicy⟩]

theorem decideObject_of_long_reject (hlong : o.long = true) (hpolicy : g.longPolicy = 1) :
    decideObject g o = .reject .long := by
  rw [decideObject, if_neg hstone, if_neg hforeign, if_neg (by omega), if_pos ⟨hlong, hpolicy⟩]

/-- The LONG check decides nothing for an object that is not long, nor under policy 2: checks 4 to 8 remain. -/
theorem decideObject_eq_decideByCounts (hpast : o.long = false ∨ g.longPolicy = 2) :
    decideObject g o = decideByCounts g o := by
  have hnot {p : Nat} (hp : p < 2) : ¬(o.long = true ∧ g.longPolicy = p) := by
    rintro ⟨hlong, hpolicy⟩
    rcases hpast with hshort | htwo
    · exact absurd hlong (by simp [hshort])
    · omega
  rw [decideObject, if_neg hstone, if_neg hforeign, if_neg (hnot (by decide)), if_neg (hnot (by decide))]

end PastStone

/-! ### Checks 4 to 8: fragment, DARK, YELLOW, CHALK, ACCEPT -/

theorem decideByCounts_of_fragment (hsmall : o.area < g.minArea) : decideByCounts g o = .fragment := if_pos hsmall

section PastFragment

variable (harea : g.minArea ≤ o.area)
include harea

theorem decideByCounts_of_dark (hdark : ratioMet g.darkMin g.darkRatio o.counts.dark o.area) :
    decideByCounts g o = .reject .dark := by
  rw [decideByCounts, if_neg harea.not_gt, if_pos (ratioTest_iff.mpr hdark)]

variable (hdark : ¬ratioMet g.darkMin g.darkRatio o.counts.dark o.area)
include hdark

theorem decideByCounts_of_yellow (hyellow : ratioMet g.yellowMin g.yellowRatio o.counts.yellow o.area) :
    decideByCounts g o = .reject .yellow := by
  rw [decideByCounts, if_neg harea.not_gt, if_neg (mt ratioTest_iff.mp hdark), if_pos (ratioTest_iff.mpr hyellow)]

variable (hyellow : ¬ratioMet g.yellowMin g.yellowRatio o.counts.yellow o.area)
include hyellow

theorem decideByCounts_of_chalk (hchalk : ratioMet g.chalkMin g.chalkRatio o.counts.chalk o.area) :
    decideByCounts g o = .reject .chalk := by
  rw [decideByCounts, if_neg harea.not_gt, if_neg (mt ratioTest_iff.mp hdark), if_neg (mt ratioTest_iff.mp hyellow),
    if_pos (ratioTest_iff.mpr hchalk)]

theorem decideByCounts_of_none (hchalk : ¬ratioMet g.chalkMin g.chalkRatio o.counts.chalk o.area) :
    decideByCounts g o = .accept := by
  rw [decideByCounts, if_neg harea.not_gt, if_neg (mt ratioTest_iff.mp hdark), if_neg (mt ratioTest_iff.mp hyellow),
    if_neg (mt ratioTest_iff.mp hchalk)]

end PastFragment

end Checks

/-- Settles O40: each clause is the lemma of its check, under the failure of the checks before it. The bound on long_policy is
not needed, since every clause on LONG names its policy. -/
theorem decisionsInOrder : Obligations.DecisionsInOrder := by
  intro g o _
  refine ⟨decideObject_of_stone, fun hstone => ⟨decideObject_of_foreign hstone, fun hforeign =>
    ⟨decideObject_of_long_accept hstone hforeign, decideObject_of_long_reject hstone hforeign, fun hpast => ?_⟩⟩⟩
  rw [decideObject_eq_decideByCounts hstone hforeign hpast]
  exact ⟨decideByCounts_of_fragment, fun harea => ⟨decideByCounts_of_dark harea, fun hdark =>
    ⟨decideByCounts_of_yellow harea hdark, fun hyellow =>
      ⟨decideByCounts_of_chalk harea hdark hyellow, decideByCounts_of_none harea hdark hyellow⟩⟩⟩⟩

end Sys2Proof.Machine

/-! ## Proofs: runs of a line (section 3, R41, R43)

What `runsFrom` finds is said once: each run is a stretch of non-BG columns with its columns counted, the runs stand left to
right with a gap between, and every non-BG column lies in one. -/
namespace Sys2Proof.Machine

/-- A run describes a stretch of non-BG columns of a line, with its columns counted by class (R43, R47). -/
structure LineRun.Of (r : LineRun) (cs : List PixelClass) : Prop where
  proper : r.first ≤ r.last
  inside : r.last < cs.length
  filled : ∀ c (h : c < cs.length), r.first ≤ c → c ≤ r.last → cs[c] ≠ .bg
  counted : ∀ p ∈ countOf, p.2 r.counts = ((cs.drop r.first).take (r.last - r.first + 1)).count p.1

/-- Left to right, none empty, at least one column between two (R43). -/
structure RunsApart (rs : List LineRun) : Prop where
  apart : rs.Pairwise fun a b => a.last + 1 < b.first
  proper : ∀ r ∈ rs, r.first ≤ r.last

/-- A column of a class adds one to its own count and nothing to the others; BG adds nothing. -/
theorem countOf_addColumn {p : PixelClass × (ClassCounts → Nat)} (hp : p ∈ countOf) (n : ClassCounts) (x : PixelClass) :
    p.2 (n.addColumn x) = p.2 n + if x = p.1 then 1 else 0 := by
  simp only [countOf, List.mem_cons, List.not_mem_nil, or_false] at hp
  rcases hp with rfl | rfl | rfl | rfl | rfl | rfl <;> cases x <;> simp [ClassCounts.addColumn]

/-- One non-BG column is a run. -/
theorem LineRun.Of.single {cs : List PixelClass} {c : Nat} (h : c < cs.length) (hx : cs[c] ≠ .bg) :
    LineRun.Of ⟨c, c, ClassCounts.addColumn {} cs[c]⟩ cs where
  proper := le_rfl
  inside := h
  filled k hk h1 h2 := by
    obtain rfl : k = c := le_antisymm h2 h1
    exact hx
  counted p hp := by
    have htake : (cs.drop c).take (c - c + 1) = [cs[c]] := by
      rw [Nat.sub_self, List.take_one_drop_eq_of_lt_length h]
      rfl
    have hzero : p.2 {} = 0 := by
      simp only [countOf, List.mem_cons, List.not_mem_nil, or_false] at hp
      rcases hp with rfl | rfl | rfl | rfl | rfl | rfl <;> rfl
    rw [htake, countOf_addColumn hp, hzero, List.count_singleton, zero_add]
    simp only [beq_iff_eq]

/-- A run takes in the next column, if that is not BG. -/
theorem LineRun.Of.extend {r : LineRun} {cs : List PixelClass} (hr : r.Of cs) (h : r.last + 1 < cs.length)
    (hx : cs[r.last + 1] ≠ .bg) :
    LineRun.Of { r with last := r.last + 1, counts := r.counts.addColumn cs[r.last + 1] } cs where
  proper := hr.proper.trans (Nat.le_succ _)
  inside := h
  filled k hk h1 h2 := by
    rcases Nat.lt_or_ge r.last k with hlt | hle
    · obtain rfl : k = r.last + 1 := le_antisymm h2 hlt
      exact hx
    · exact hr.filled k hk h1 hle
  counted p hp := by
    have hproper := hr.proper
    have hget : (cs.drop r.first)[r.last - r.first + 1]? = some cs[r.last + 1] := by
      rw [List.getElem?_drop, show r.first + (r.last - r.first + 1) = r.last + 1 by omega, List.getElem?_eq_getElem h]
    have htake : (cs.drop r.first).take (r.last + 1 - r.first + 1) =
        (cs.drop r.first).take (r.last - r.first + 1) ++ [cs[r.last + 1]] := by
      rw [show r.last + 1 - r.first + 1 = (r.last - r.first + 1) + 1 by omega, List.take_add_one, hget]
      rfl
    rw [countOf_addColumn hp, hr.counted p hp, htake, List.count_append, List.count_singleton]
    simp only [beq_iff_eq]

section RunsFrom

variable {cs xs : List PixelClass} {c : Nat} {cur : Option LineRun}

/-- The reading of a line has come to column `c`, the columns from there are `xs`, and `cur` is the run that ends just before. -/
structure RunsReading (cs : List PixelClass) (c : Nat) (cur : Option LineRun) (xs : List PixelClass) : Prop where
  rest : cs.drop c = xs
  current : ∀ r, cur = some r → r.Of cs ∧ r.last + 1 = c

/-- The column being read, and what is left after it. -/
theorem RunsReading.head {x : PixelClass} (h : RunsReading cs c cur (x :: xs)) :
    ∃ hc : c < cs.length, cs[c] = x ∧ cs.drop (c + 1) = xs := by
  have hlen := congrArg List.length h.rest
  have hc : c < cs.length := by simp at hlen; omega
  have hdrop := h.rest
  rw [List.drop_eq_getElem_cons hc, List.cons.injEq] at hdrop
  exact ⟨hc, hdrop⟩

theorem RunsReading.past (h : cs.drop (c + 1) = xs) : RunsReading cs (c + 1) none xs := ⟨h, nofun⟩

theorem RunsReading.start {x : PixelClass} (h : RunsReading cs c none (x :: xs)) (hx : x ≠ .bg) :
    RunsReading cs (c + 1) (some ⟨c, c, ClassCounts.addColumn {} x⟩) xs := by
  obtain ⟨hc, rfl, hrest⟩ := h.head
  exact ⟨hrest, fun r hr => by cases hr; exact ⟨.single hc hx, rfl⟩⟩

theorem RunsReading.extend {x : PixelClass} {r : LineRun} (h : RunsReading cs c (some r) (x :: xs)) (hx : x ≠ .bg) :
    RunsReading cs (c + 1) (some { r with last := c, counts := r.counts.addColumn x }) xs := by
  obtain ⟨hc, rfl, hrest⟩ := h.head
  obtain ⟨hr, rfl⟩ := h.current r rfl
  exact ⟨hrest, fun q hq => by cases hq; exact ⟨hr.extend hc hx, rfl⟩⟩

/-- Every run found is a stretch of non-BG columns of the line. -/
theorem runsFrom_of (h : RunsReading cs c cur xs) : ∀ r ∈ runsFrom c cur xs, r.Of cs := by
  induction xs generalizing c cur with
  | nil =>
    cases cur with
    | none => exact nofun
    | some q => exact fun r hr => by rw [List.mem_singleton.1 hr]; exact (h.current q rfl).1
  | cons x xs ih =>
    obtain ⟨-, -, hrest⟩ := h.head
    cases cur with
    | none =>
      unfold runsFrom
      split
      · exact ih (.past hrest)
      · exact ih (h.start ‹_›)
    | some q =>
      unfold runsFrom
      split
      · intro r hr
        rcases List.mem_cons.1 hr with rfl | hr
        · exact (h.current _ rfl).1
        · exact ih (.past hrest) r hr
      · exact ih (h.extend ‹_›)

/-- No run found begins before the run in progress, or before the column being read. -/
theorem runsFrom_first (h : RunsReading cs c cur xs) :
    ∀ r ∈ runsFrom c cur xs, (cur.map LineRun.first).getD c ≤ r.first := by
  induction xs generalizing c cur with
  | nil =>
    cases cur with
    | none => exact nofun
    | some q => exact fun r hr => by rw [List.mem_singleton.1 hr]; rfl
  | cons x xs ih =>
    obtain ⟨-, -, hrest⟩ := h.head
    cases cur with
    | none =>
      unfold runsFrom
      split
      · exact fun r hr => (Nat.le_succ c).trans (ih (.past hrest) r hr)
      · exact ih (h.start ‹_›)
    | some q =>
      obtain ⟨hq, hlast⟩ := h.current q rfl
      unfold runsFrom
      split
      · intro r hr
        rcases List.mem_cons.1 hr with rfl | hr
        · exact le_rfl
        · have := ih (.past hrest) r hr
          have := hq.proper
          simp only [Option.map_none, Option.getD_none, Option.map_some, Option.getD_some] at *
          omega
      · exact ih (h.extend ‹_›)

/-- The runs found stand left to right with a gap between. -/
theorem runsFrom_pairwise (h : RunsReading cs c cur xs) :
    (runsFrom c cur xs).Pairwise fun a b => a.last + 1 < b.first := by
  induction xs generalizing c cur with
  | nil => cases cur <;> simp [runsFrom]
  | cons x xs ih =>
    obtain ⟨-, -, hrest⟩ := h.head
    cases cur with
    | none =>
      unfold runsFrom
      split
      · exact ih (.past hrest)
      · exact ih (h.start ‹_›)
    | some q =>
      obtain ⟨-, hlast⟩ := h.current q rfl
      unfold runsFrom
      split
      · refine List.pairwise_cons.2 ⟨fun r hr => ?_, ih (.past hrest)⟩
        have := runsFrom_first (.past hrest) r hr
        simp only [Option.map_none, Option.getD_none] at this
        omega
      · exact ih (h.extend ‹_›)

/-- Every non-BG column still to be read, and every column of the run in progress, lies in a run found. -/
theorem runsFrom_covers (h : RunsReading cs c cur xs) {k : Nat} (hk : k < cs.length) (hx : cs[k] ≠ .bg)
    (hfrom : (cur.map LineRun.first).getD c ≤ k) : ∃ r ∈ runsFrom c cur xs, r.first ≤ k ∧ k ≤ r.last := by
  induction xs generalizing c cur with
  | nil =>
    have hend : cs.length ≤ c := List.drop_eq_nil_iff.1 h.rest
    cases cur with
    | none => simp only [Option.map_none, Option.getD_none] at hfrom; omega
    | some q =>
      obtain ⟨-, hlast⟩ := h.current q rfl
      exact ⟨q, by simp [runsFrom], hfrom, by omega⟩
  | cons x xs ih =>
    obtain ⟨hc, hcx, hrest⟩ := h.head
    cases cur with
    | none =>
      simp only [Option.map_none, Option.getD_none] at hfrom
      unfold runsFrom
      split
      · rename_i hbg
        have : k ≠ c := by rintro rfl; exact hx (hcx.trans hbg)
        exact ih (.past hrest) (by simp only [Option.map_none, Option.getD_none]; omega)
      · exact ih (h.start ‹_›) hfrom
    | some q =>
      obtain ⟨-, hlast⟩ := h.current q rfl
      unfold runsFrom
      split
      · rename_i hbg
        have : k ≠ c := by rintro rfl; exact hx (hcx.trans hbg)
        by_cases hkc : k < c
        · exact ⟨q, List.mem_cons_self, hfrom, by omega⟩
        · obtain ⟨r, hr, hin⟩ := ih (.past hrest) (by simp only [Option.map_none, Option.getD_none]; omega)
          exact ⟨r, List.mem_cons_of_mem _ hr, hin⟩
      · exact ih (h.extend ‹_›) hfrom

end RunsFrom

theorem RunsReading.whole (cs : List PixelClass) : RunsReading cs 0 none cs := ⟨rfl, nofun⟩

theorem runsOf_of (cs : List PixelClass) : ∀ r ∈ runsOf cs, r.Of cs := runsFrom_of (.whole cs)

theorem runsOf_apart (cs : List PixelClass) : RunsApart (runsOf cs) :=
  ⟨runsFrom_pairwise (.whole cs), fun r hr => (runsOf_of cs r hr).proper⟩

/-- A column lies in a run exactly when it is not BG. -/
theorem mem_runsOf_iff (cs : List PixelClass) {c : Nat} (h : c < cs.length) :
    cs[c] ≠ .bg ↔ ∃ r ∈ runsOf cs, r.first ≤ c ∧ c ≤ r.last :=
  ⟨fun hx => runsFrom_covers (.whole cs) h hx (Nat.zero_le c), fun ⟨r, hr, h1, h2⟩ => (runsOf_of cs r hr).filled c h h1 h2⟩

/-- The six counts of a run sum to its number of columns (R41, R47). -/
theorem LineRun.Of.total_eq_length {r : LineRun} {cs : List PixelClass} (h : r.Of cs) : r.counts.total = r.length := by
  have hproper := h.proper
  have hinside := h.inside
  have key (l : List PixelClass) (hl : ∀ x ∈ l, x ≠ .bg) :
      l.count .sound + l.count .chalk + l.count .yellow + l.count .dark + l.count .foreign + l.count .stone = l.length := by
    induction l with
    | nil => rfl
    | cons x l ih =>
      have hbg := hl x List.mem_cons_self
      have := ih fun y hy => hl y (List.mem_cons_of_mem _ hy)
      simp only [List.count_cons, List.length_cons]
      cases x
      case bg => exact absurd rfl hbg
      all_goals simp; omega
  have hc (p) (hp : p ∈ countOf) := h.counted p hp
  simp only [countOf, List.mem_cons, List.not_mem_nil, or_false, forall_eq_or_imp, forall_eq] at hc
  obtain ⟨h1, h2, h3, h4, h5, h6⟩ := hc
  have hfilled : ∀ x ∈ (cs.drop r.first).take (r.last - r.first + 1), x ≠ .bg := by
    intro x hx
    obtain ⟨i, hi, rfl⟩ := List.mem_iff_getElem.1 hx
    simp only [List.length_take, List.length_drop] at hi
    simp only [List.getElem_take, List.getElem_drop]
    exact h.filled _ (by omega) (by omega) (by omega)
  rw [ClassCounts.total, h1, h2, h3, h4, h5, h6, key _ hfilled, LineRun.length, List.length_take, List.length_drop]
  omega

end Sys2Proof.Machine

/-! ## Proofs: groups of touching objects and runs (section 3, R44)

The groups the tracker builds are the classes of touching: they split the table and the line's runs, what touching links stands
in one group, and the runs of a group are not mixed with others, so that no run stands between two runs of another group. -/
namespace Sys2Proof.Machine

open Relation (ReflTransGen)

/-- For a run and a span that are not empty the tracker's test is touching. -/
theorem touches_iff_touching {q : LineRun} {o : OpenObject} (hq : q.first ≤ q.last) (ho : o.spanStart ≤ o.spanEnd) :
    touches q o = true ↔ touching q o := by
  simp only [touches, Bool.and_eq_true, decide_eq_true_eq, touching]
  constructor
  · rintro ⟨h1, h2⟩
    exact ⟨max q.first (o.spanStart - 1), by omega, by omega, by omega, by omega⟩
  · rintro ⟨c, h1, h2, h3, h4⟩
    omega

theorem touchStep_symm {objects : List OpenObject} {runs : List LineRun} {a b : OpenObject ⊕ LineRun}
    (h : touchStep objects runs a b) : touchStep objects runs b a := by
  match a, b, h with
  | .inl _, .inr _, h => exact h
  | .inr _, .inl _, h => exact h

/-- An object and a run that it touches are linked, either way. -/
theorem touchStep_of_touching {objects : List OpenObject} {runs : List LineRun} {o : OpenObject} {q : LineRun}
    (ho : o ∈ objects) (hq : q ∈ runs) (htouch : touching q o) :
    touchStep objects runs (.inl o) (.inr q) ∧ touchStep objects runs (.inr q) (.inl o) :=
  ⟨⟨ho, hq, htouch⟩, ⟨ho, hq, htouch⟩⟩

theorem linked_symm {objects : List OpenObject} {runs : List LineRun} {a b : OpenObject ⊕ LineRun}
    (h : ReflTransGen (touchStep objects runs) a b) : ReflTransGen (touchStep objects runs) b a := by
  induction h with
  | refl => exact .refl
  | tail _ hstep ih => exact .head (touchStep_symm hstep) ih

/-- More runs keep what is linked. -/
theorem linked_mono {objects : List OpenObject} {runs runs' : List LineRun} (hsub : ∀ q ∈ runs, q ∈ runs')
    {a b : OpenObject ⊕ LineRun} (h : ReflTransGen (touchStep objects runs) a b) :
    ReflTransGen (touchStep objects runs') a b := by
  refine ReflTransGen.mono (fun a b hstep => ?_) _ _ h
  match a, b, hstep with
  | .inl _, .inr _, ⟨ho, hq, ht⟩ => exact ⟨ho, hsub _ hq, ht⟩
  | .inr _, .inl _, ⟨ho, hq, ht⟩ => exact ⟨ho, hsub _ hq, ht⟩

/-- Whether an object or a run stands in a group. -/
def TouchGroup.has (g : TouchGroup) : OpenObject ⊕ LineRun → Prop
  | .inl o => o ∈ g.objects
  | .inr q => q ∈ g.runs

/-- Groups split a table and the runs of a line along touching (R44). -/
structure Grouped (objects : List OpenObject) (runs : List LineRun) (gs : List TouchGroup) : Prop where
  objects_perm : (gs.flatMap TouchGroup.objects).Perm objects
  runs_perm : (gs.flatMap TouchGroup.runs).Perm runs
  linked : ∀ g ∈ gs, ∀ a b, g.has a → g.has b → ReflTransGen (touchStep objects runs) a b
  closed : ∀ g ∈ gs, ∀ o ∈ g.objects, ∀ q ∈ runs, touching q o → q ∈ g.runs

namespace Grouped

variable {objects : List OpenObject} {runs : List LineRun} {gs : List TouchGroup}

theorem mem_objects (h : Grouped objects runs gs) {g : TouchGroup} (hg : g ∈ gs) {o : OpenObject} (ho : o ∈ g.objects) :
    o ∈ objects := h.objects_perm.subset (List.mem_flatMap.2 ⟨g, hg, ho⟩)

theorem mem_runs (h : Grouped objects runs gs) {g : TouchGroup} (hg : g ∈ gs) {q : LineRun} (hq : q ∈ g.runs) :
    q ∈ runs := h.runs_perm.subset (List.mem_flatMap.2 ⟨g, hg, hq⟩)

theorem exists_of_object (h : Grouped objects runs gs) {o : OpenObject} (ho : o ∈ objects) : ∃ g ∈ gs, o ∈ g.objects :=
  List.mem_flatMap.1 (h.objects_perm.symm.subset ho)

/-- Before the first run every object is a group of its own. -/
theorem singletons (objects : List OpenObject) : Grouped objects [] (objects.map fun o => ⟨[o], []⟩) where
  objects_perm := by simp [List.flatMap_map]
  runs_perm := by simp [List.flatMap_map]
  linked g hg a b ha hb := by
    obtain ⟨o, -, rfl⟩ := List.mem_map.1 hg
    match a, b, ha, hb with
    | .inl a, .inl b, ha, hb =>
      obtain rfl : a = b := (List.mem_singleton.1 ha).trans (List.mem_singleton.1 hb).symm
      exact .refl
  closed _ _ _ _ _ hq := absurd hq List.not_mem_nil

/-- The groups that hold an object the run touches. -/
theorem any_touches_iff (h : Grouped objects runs gs) (hproper : ∀ o ∈ objects, o.spanStart ≤ o.spanEnd) {q : LineRun}
    (hq : q.first ≤ q.last) {g : TouchGroup} (hg : g ∈ gs) :
    g.objects.any (touches q) = true ↔ ∃ o ∈ g.objects, touching q o := by
  rw [List.any_eq_true]
  exact exists_congr fun o => and_congr_right fun ho => touches_iff_touching hq (hproper o (h.mem_objects hg ho))

/-- A run joins the groups it touches (R44). -/
theorem addRun (h : Grouped objects runs gs) (hproper : ∀ o ∈ objects, o.spanStart ≤ o.spanEnd) {q : LineRun}
    (hq : q.first ≤ q.last) : Grouped objects (runs ++ [q]) (addRun gs q) := by
  have hsplit := List.filter_append_perm (fun g : TouchGroup => g.objects.any (touches q)) gs
  have hold : ∀ r ∈ runs, r ∈ runs ++ [q] := fun r hr => List.mem_append_left _ hr
  have hnew : q ∈ runs ++ [q] := List.mem_append_right _ List.mem_cons_self
  have hhit {g} (hg : g ∈ gs.filter fun g => g.objects.any (touches q)) : g ∈ gs ∧ ∃ o ∈ g.objects, touching q o := by
    obtain ⟨hg, ht⟩ := List.mem_filter.1 hg
    exact ⟨hg, (h.any_touches_iff hproper hq hg).1 ht⟩
  have hrest {g} (hg : g ∈ gs.filter fun g => !g.objects.any (touches q)) : g ∈ gs ∧ ∀ o ∈ g.objects, ¬touching q o := by
    obtain ⟨hg, ht⟩ := List.mem_filter.1 hg
    refine ⟨hg, fun o ho htouch => ?_⟩
    rw [(h.any_touches_iff hproper hq hg).2 ⟨o, ho, htouch⟩] at ht
    exact Bool.false_ne_true ht
  refine ⟨?_, ?_, ?_, ?_⟩
  · have := hsplit.flatMap_right TouchGroup.objects
    simp only [List.flatMap_append] at this
    exact this.trans h.objects_perm
  · have := (hsplit.flatMap_right TouchGroup.runs).trans h.runs_perm
    simp only [List.flatMap_append] at this
    simp only [Machine.addRun, List.flatMap_cons, List.append_assoc]
    refine List.Perm.trans ?_ (this.append_right [q])
    rw [List.append_assoc]
    exact List.Perm.append_left _ List.perm_append_comm
  · intro g hg a b ha hb
    rcases List.mem_cons.1 hg with rfl | hg
    · have toRun (a) (ha : TouchGroup.has
          ⟨(gs.filter fun g => g.objects.any (touches q)).flatMap TouchGroup.objects,
            (gs.filter fun g => g.objects.any (touches q)).flatMap TouchGroup.runs ++ [q]⟩ a) : ReflTransGen (touchStep objects (runs ++ [q])) a (.inr q) := by
        have viaObject {g} (hg : g ∈ gs.filter fun g => g.objects.any (touches q)) (hga : g.has a) :
            ReflTransGen (touchStep objects (runs ++ [q])) a (.inr q) := by
          obtain ⟨hg, o, ho, htouch⟩ := hhit hg
          exact (linked_mono hold (h.linked g hg a (.inl o) hga ho)).tail ⟨h.mem_objects hg ho, hnew, htouch⟩
        match a, ha with
        | .inl o, ha =>
          obtain ⟨g, hg, ho⟩ := List.mem_flatMap.1 ha
          exact viaObject hg ho
        | .inr r, ha =>
          rcases List.mem_append.1 ha with ha | ha
          · obtain ⟨g, hg, hr⟩ := List.mem_flatMap.1 ha
            exact viaObject hg hr
          · rw [List.mem_singleton.1 ha]
      exact (toRun a ha).trans (linked_symm (toRun b hb))
    · exact linked_mono hold (h.linked g (hrest hg).1 a b ha hb)
  · intro g hg o ho r hr htouch
    have hr := List.mem_append.1 hr
    rcases List.mem_cons.1 hg with rfl | hg
    · obtain ⟨g, hg, ho⟩ := List.mem_flatMap.1 ho
      rcases hr with hr | hr
      · exact List.mem_append_left _ (List.mem_flatMap.2 ⟨g, hg, h.closed g (hhit hg).1 o ho r hr htouch⟩)
      · exact List.mem_append_right _ hr
    · rcases hr with hr | hr
      · exact h.closed g (hrest hg).1 o ho r hr htouch
      · rw [List.mem_singleton.1 hr] at htouch
        exact absurd htouch ((hrest hg).2 o ho)

end Grouped

/-- What the tracker builds from a table and a line's runs splits them along touching. -/
theorem grouped_touchGroups {objects : List OpenObject} {runs : List LineRun}
    (hobjects : ∀ o ∈ objects, o.spanStart ≤ o.spanEnd) (hruns : ∀ q ∈ runs, q.first ≤ q.last) :
    Grouped objects runs (touchGroups objects runs) := by
  induction runs using List.reverseRecOn with
  | nil => exact .singletons objects
  | append_singleton runs q ih =>
    rw [touchGroups, List.foldl_append]
    exact (ih fun r hr => hruns r (List.mem_append_left _ hr)).addRun hobjects
      (hruns q (List.mem_append_right _ List.mem_cons_self))

/-- A line before the tracker: the table in table order with distinct places, the runs left to right. -/
structure LineReady (objects : List OpenObject) (runs : List LineRun) : Prop where
  table : inTableOrder objects
  places : (objects.map OpenObject.slotId).Nodup
  runs : RunsApart runs

theorem RunsApart.nodup {runs : List LineRun} (h : RunsApart runs) : runs.Nodup := by
  refine h.apart.imp_of_mem fun ha hb hab => ?_
  rintro rfl
  have := h.proper _ ha
  omega

/-- Of two members of an ordered list one is the other or stands before it. -/
theorem pairwise_cases {α : Type} {R : α → α → Prop} {l : List α} (h : l.Pairwise R) {a b : α} (ha : a ∈ l) (hb : b ∈ l) :
    a = b ∨ R a b ∨ R b a := by
  induction h with
  | nil => exact absurd ha List.not_mem_nil
  | cons hhead _ ih =>
    rcases List.mem_cons.1 ha with rfl | hal <;> rcases List.mem_cons.1 hb with rfl | hbl
    · exact .inl rfl
    · exact .inr (.inl (hhead b hbl))
    · exact .inr (.inr (hhead a hal))
    · exact ih hal hbl

namespace LineReady

variable {objects : List OpenObject} {runs : List LineRun}

theorem grouped (h : LineReady objects runs) : Grouped objects runs (touchGroups objects runs) :=
  grouped_touchGroups h.table.2 h.runs.proper

theorem objects_nodup (h : LineReady objects runs) : objects.Nodup := h.places.of_map

/-- Two groups that share an object, or share a run, are one. -/
theorem group_unique (h : LineReady objects runs) {g g' : TouchGroup} (hg : g ∈ touchGroups objects runs)
    (hg' : g' ∈ touchGroups objects runs) {a : OpenObject ⊕ LineRun} (ha : g.has a) (ha' : g'.has a) : g = g' := by
  have hobjects := (List.nodup_flatMap.1 (h.grouped.objects_perm.nodup_iff.2 h.objects_nodup)).2
  have hruns := (List.nodup_flatMap.1 (h.grouped.runs_perm.nodup_iff.2 h.runs.nodup)).2
  match a, ha, ha' with
  | .inl o, ha, ha' =>
    rcases pairwise_cases hobjects hg hg' with heq | hd | hd
    · exact heq
    · exact (hd ha ha').elim
    · exact (hd ha' ha).elim
  | .inr q, ha, ha' =>
    rcases pairwise_cases hruns hg hg' with heq | hd | hd
    · exact heq
    · exact (hd ha ha').elim
    · exact (hd ha' ha).elim

/-- A group holds exactly what touching links to one of its members (R44). -/
theorem has_iff_linked (h : LineReady objects runs) {g : TouchGroup} (hg : g ∈ touchGroups objects runs)
    {a b : OpenObject ⊕ LineRun} (ha : g.has a) : g.has b ↔ ReflTransGen (touchStep objects runs) a b := by
  refine ⟨h.grouped.linked g hg a b ha, fun hlink => ?_⟩
  induction hlink with
  | refl => exact ha
  | @tail b c _ hstep hb =>
    match b, c, hstep with
    | .inl o, .inr q, ⟨_, hq, htouch⟩ => exact h.grouped.closed g hg o hb q hq htouch
    | .inr q, .inl o, ⟨ho, hq, htouch⟩ =>
      obtain ⟨g', hg', ho'⟩ := h.grouped.exists_of_object ho
      obtain rfl := h.group_unique hg hg' (a := .inr q) hb (h.grouped.closed g' hg' o ho' q hq htouch)
      exact ho'

/-- A run that is not linked to a run left of it stands right of all that is linked to that one. -/
theorem linked_left (h : LineReady objects runs) {p q : LineRun} (hq : q ∈ runs) (hleft : p.last + 1 < q.first)
    (hapart : ¬ReflTransGen (touchStep objects runs) (.inr p) (.inr q)) {r : LineRun}
    (hr : ReflTransGen (touchStep objects runs) (.inr p) (.inr r)) : r.last + 1 < q.first := by
  have hproper := h.runs.proper q hq
  suffices key : ∀ b, ReflTransGen (touchStep objects runs) (.inr p) b →
      match b with
      | .inl o => o.spanEnd + 1 < q.first
      | .inr r => r.last + 1 < q.first from key _ hr
  intro b hb
  induction hb with
  | refl => exact hleft
  | @tail b c hpb hstep ih =>
    match b, c, hstep, ih with
    | .inr r, .inl o, ⟨ho, hr, htouch⟩, ih =>
      by_contra hnot
      have hspan := h.table.2 o ho
      obtain ⟨c, h1, h2, h3, h4⟩ := id htouch
      simp only at ih hnot
      have htouches : touching q o := ⟨q.first, le_rfl, by omega, by omega, by omega⟩
      exact hapart ((hpb.tail (touchStep_of_touching ho hr htouch).2).tail (touchStep_of_touching ho hq htouches).1)
    | .inl o, .inr r, ⟨ho, hr, htouch⟩, ih =>
      obtain ⟨c, h1, h2, h3, h4⟩ := htouch
      simp only at ih
      rcases pairwise_cases h.runs.apart hr hq with rfl | hrq | hqr
      · omega
      · exact hrq
      · omega

/-- The runs of two groups do not stand between each other. -/
theorem groups_apart (h : LineReady objects runs) {g g' : TouchGroup} (hg : g ∈ touchGroups objects runs)
    (hg' : g' ∈ touchGroups objects runs) (hne : g ≠ g') :
    (∀ q ∈ g.runs, ∀ r ∈ g'.runs, q.last + 1 < r.first) ∨ ∀ q ∈ g.runs, ∀ r ∈ g'.runs, r.last + 1 < q.first := by
  have hruns {g} (hg : g ∈ touchGroups objects runs) {q} (hq : q ∈ g.runs) : q ∈ runs := h.grouped.mem_runs hg hq
  have hapart {g g' : TouchGroup} (hg : g ∈ touchGroups objects runs) (hg' : g' ∈ touchGroups objects runs) (hne : g ≠ g')
      {q r} (hq : q ∈ g.runs) (hr : r ∈ g'.runs) : ¬ReflTransGen (touchStep objects runs) (.inr q) (.inr r) := fun hlink =>
    hne (h.group_unique hg hg' (a := .inr r) ((h.has_iff_linked hg (a := .inr q) hq).2 hlink) hr)
  have hlink {g : TouchGroup} (hg : g ∈ touchGroups objects runs) {q r} (hq : q ∈ g.runs) (hr : r ∈ g.runs) :
      ReflTransGen (touchStep objects runs) (.inr q) (.inr r) := h.grouped.linked g hg _ _ hq hr
  have spread {g g' : TouchGroup} (hg : g ∈ touchGroups objects runs) (hg' : g' ∈ touchGroups objects runs) (hne : g ≠ g')
      {q r} (hq : q ∈ g.runs) (hr : r ∈ g'.runs) (hlt : q.last + 1 < r.first) :
      ∀ q' ∈ g.runs, ∀ r' ∈ g'.runs, q'.last + 1 < r'.first := by
    intro q' hq' r' hr'
    have h1 : q'.last + 1 < r.first :=
      h.linked_left (hruns hg' hr) hlt (hapart hg hg' hne hq hr) (hlink hg hq hq')
    have hq'p := h.runs.proper q' (hruns hg hq')
    have hr'p := h.runs.proper r' (hruns hg' hr')
    rcases pairwise_cases h.runs.apart (hruns hg hq') (hruns hg' hr') with heq | hlt' | hgt
    · exact absurd (heq ▸ .refl) (hapart hg hg' hne hq' hr')
    · exact hlt'
    · have := h.linked_left (hruns hg hq') hgt (hapart hg' hg hne.symm hr' hq') (hlink hg' hr' hr)
      have := h.runs.proper r (hruns hg' hr)
      omega
  by_cases hsome : ∃ q ∈ g.runs, ∃ r ∈ g'.runs, q.last + 1 < r.first
  · obtain ⟨q, hq, r, hr, hlt⟩ := hsome
    exact .inl (spread hg hg' hne hq hr hlt)
  · refine .inr fun q hq r hr => ?_
    rcases pairwise_cases h.runs.apart (hruns hg hq) (hruns hg' hr) with heq | hlt | hgt
    · exact absurd (heq ▸ .refl) (hapart hg hg' hne hq hr)
    · exact absurd ⟨q, hq, r, hr, hlt⟩ hsome
    · exact hgt

end LineReady

end Sys2Proof.Machine

/-! ## Proofs: what becomes of a group (section 3, R46, R47)

Merging and extending are folds over a group in the order in which the tracker has built it; what they leave is said here
without that order. -/
namespace Sys2Proof.Machine

/-- A fold that keeps the lesser of two keys ends with the least of them. -/
theorem foldl_min_spec {α : Type} (f : α → Nat) (l : List α) (a : Nat) :
    (l.foldl (fun m x => min m (f x)) a ∈ a :: l.map f) ∧ ∀ c ∈ a :: l.map f, l.foldl (fun m x => min m (f x)) a ≤ c := by
  induction l generalizing a with
  | nil => simp
  | cons x l ih =>
    obtain ⟨hmem, hle⟩ := ih (min a (f x))
    have hmin := hle _ List.mem_cons_self
    simp only [List.foldl_cons, List.map_cons, List.mem_cons, forall_eq_or_imp] at *
    refine ⟨?_, by omega, by omega, fun c hc => hle.2 c hc⟩
    rcases hmem with h | h
    · rcases le_total a (f x) with h' | h'
      · exact .inl (h.trans (min_eq_left h'))
      · exact .inr (.inl (h.trans (min_eq_right h')))
    · exact .inr (.inr h)

/-- A fold that keeps the greater of two keys ends with the greatest of them. -/
theorem foldl_max_spec {α : Type} (f : α → Nat) (l : List α) (a : Nat) :
    (l.foldl (fun m x => max m (f x)) a ∈ a :: l.map f) ∧ ∀ c ∈ a :: l.map f, c ≤ l.foldl (fun m x => max m (f x)) a := by
  induction l generalizing a with
  | nil => simp
  | cons x l ih =>
    obtain ⟨hmem, hle⟩ := ih (max a (f x))
    have hmax := hle _ List.mem_cons_self
    simp only [List.foldl_cons, List.map_cons, List.mem_cons, forall_eq_or_imp] at *
    refine ⟨?_, by omega, by omega, fun c hc => hle.2 c hc⟩
    rcases hmem with h | h
    · rcases le_total a (f x) with h' | h'
      · exact .inr (.inl (h.trans (max_eq_right h')))
      · exact .inl (h.trans (max_eq_left h'))
    · exact .inr (.inr h)

/-- Each class count of a sum is the sum of the class counts. -/
theorem countOf_add {p : PixelClass × (ClassCounts → Nat)} (hp : p ∈ countOf) (a b : ClassCounts) :
    p.2 (a.add b) = p.2 a + p.2 b := by
  simp only [countOf, List.mem_cons, List.not_mem_nil, or_false] at hp
  rcases hp with rfl | rfl | rfl | rfl | rfl | rfl <;> rfl

/-- Counts that agree class by class are equal. -/
theorem ClassCounts.ext_countOf {a b : ClassCounts} (h : ∀ p ∈ countOf, p.2 a = p.2 b) : a = b := by
  simp only [countOf, List.mem_cons, List.not_mem_nil, or_false, forall_eq_or_imp, forall_eq] at h
  obtain ⟨h1, h2, h3, h4, h5, h6⟩ := h
  cases a
  cases b
  simp_all only

/-- What the merger of objects comes to, whatever the order in which they are merged (R46). -/
structure MergedInto (os : List OpenObject) (m : OpenObject) : Prop where
  leftmost : ∃ o ∈ os, (∀ p ∈ os, o.spanStart ≤ p.spanStart) ∧ m.slotId = o.slotId ∧ m.spanStart = o.spanStart ∧
    m.long = o.long ∧ m.cluster = o.cluster ∧ m.merged = (o.merged || decide (2 ≤ os.length))
  area : m.area = (os.map OpenObject.area).sum
  counts : ∀ p ∈ countOf, p.2 m.counts = (os.map fun o => p.2 o.counts).sum
  cmin : m.cmin ∈ os.map OpenObject.cmin ∧ ∀ c ∈ os.map OpenObject.cmin, m.cmin ≤ c
  cmax : m.cmax ∈ os.map OpenObject.cmax ∧ ∀ c ∈ os.map OpenObject.cmax, c ≤ m.cmax
  mixed : m.mixed = os.any OpenObject.mixed

theorem MergedInto.single (o : OpenObject) : MergedInto [o] o where
  leftmost := ⟨o, by simp⟩
  area := by simp
  counts := by simp
  cmin := by simp
  cmax := by simp
  mixed := by simp

theorem MergedInto.merge {os : List OpenObject} {m : OpenObject} (h : MergedInto os m) (b : OpenObject) :
    MergedInto (os ++ [b]) (mergeObjects m b) where
  leftmost := by
    obtain ⟨o, ho, hleft, hslot, hstart, hlong, hcluster, -⟩ := h.leftmost
    have hlen : 2 ≤ (os ++ [b]).length := by
      have := List.length_pos_of_mem ho
      simp only [List.length_append, List.length_singleton]
      omega
    simp only [mergeObjects, Machine.leftmost, hstart, List.forall_mem_append, List.forall_mem_singleton, hlen]
    split
    · rename_i hlt
      exact ⟨b, by simp, ⟨fun p hp => hlt.le.trans (hleft p hp), le_rfl⟩, rfl, rfl, rfl, rfl, by simp⟩
    · rename_i hle
      exact ⟨o, by simp [ho], ⟨hleft, not_lt.1 hle⟩, hslot, hstart, hlong, hcluster, by simp⟩
  area := by simp [mergeObjects, h.area]
  counts p hp := by simp [mergeObjects, countOf_add hp, h.counts p hp]
  cmin := by
    obtain ⟨hmem, hle⟩ := h.cmin
    simp only [mergeObjects, List.map_append, List.map_cons, List.map_nil, List.mem_append, List.mem_singleton]
    refine ⟨?_, fun c hc => hc.elim (fun hc => (min_le_left _ _).trans (hle c hc)) fun hc => hc ▸ min_le_right _ _⟩
    rcases le_total m.cmin b.cmin with h' | h'
    · exact .inl ((min_eq_left h').symm ▸ hmem)
    · exact .inr (min_eq_right h')
  cmax := by
    obtain ⟨hmem, hle⟩ := h.cmax
    simp only [mergeObjects, List.map_append, List.map_cons, List.map_nil, List.mem_append, List.mem_singleton]
    refine ⟨?_, fun c hc => hc.elim (fun hc => (hle c hc).trans (le_max_left _ _)) fun hc => hc ▸ le_max_right _ _⟩
    rcases le_total m.cmax b.cmax with h' | h'
    · exact .inr (max_eq_right h')
    · exact .inl ((max_eq_left h').symm ▸ hmem)
  mixed := by simp [mergeObjects, h.mixed]

theorem MergedInto.foldl {os : List OpenObject} {m : OpenObject} (h : MergedInto os m) (bs : List OpenObject) :
    MergedInto (os ++ bs) (bs.foldl mergeObjects m) := by
  induction bs generalizing os m with
  | nil => rwa [List.append_nil]
  | cons b bs ih =>
    rw [List.append_cons]
    exact ih (h.merge b)

/-- Of lines less than half the range behind a line the earliest is the one furthest behind (R3, R46). -/
theorem lineBefore_iff {line a b : LineNo} (ha : (line - a).toNat < 2147483648) (hb : (line - b).toNat < 2147483648) :
    lineBefore b a = true ↔ (line - a).toNat < (line - b).toNat := by
  have hdiff : (b - a).toInt = ((line - a).toNat : Int) - ((line - b).toNat : Int) := by
    have : b - a = (line - a) - (line - b) := by bv_omega
    rw [this, BitVec.toInt_sub, BitVec.toInt_eq_toNat_of_lt (by omega), BitVec.toInt_eq_toNat_of_lt (by omega),
      Int.bmod_eq_of_le (by omega) (by omega)]
  simp only [lineBefore, lineDiff, decide_eq_true_eq, hdiff]
  omega

/-- The earliest first line of merged objects (R46, log entry 24). -/
theorem firstLine_foldl {line : LineNo} {m : OpenObject} {bs : List OpenObject}
    (hm : (line - m.firstLine).toNat < 2147483648) (hbs : ∀ b ∈ bs, (line - b.firstLine).toNat < 2147483648) :
    (bs.foldl mergeObjects m).firstLine ∈ m.firstLine :: bs.map OpenObject.firstLine ∧
      ∀ f ∈ m.firstLine :: bs.map OpenObject.firstLine,
        (line - f).toNat ≤ (line - (bs.foldl mergeObjects m).firstLine).toNat := by
  induction bs generalizing m with
  | nil => simp
  | cons b bs ih =>
    have hb := hbs b List.mem_cons_self
    have hiff := lineBefore_iff hm hb
    simp only [List.foldl_cons, List.map_cons]
    have hfirst : (mergeObjects m b).firstLine = if lineBefore b.firstLine m.firstLine then b.firstLine else m.firstLine := rfl
    obtain ⟨hmem, hle⟩ := ih (m := mergeObjects m b) (by rw [hfirst]; split <;> assumption)
      fun b hb => hbs b (List.mem_cons_of_mem _ hb)
    rw [List.forall_mem_cons] at hle
    obtain ⟨hhead, htail⟩ := hle
    rw [List.forall_mem_cons, List.forall_mem_cons]
    rw [hfirst] at hhead hmem
    split at hhead
    · rename_i hlt
      rw [if_pos hlt] at hmem
      exact ⟨List.mem_cons_of_mem _ hmem, (hiff.1 hlt).le.trans hhead, hhead, htail⟩
    · rename_i hge
      rw [if_neg hge] at hmem
      refine ⟨?_, hhead, ?_, htail⟩
      · rcases List.mem_cons.1 hmem with h | h
        · exact List.mem_cons.2 (.inl h)
        · exact List.mem_cons_of_mem _ (List.mem_cons_of_mem _ h)
      · exact (not_lt.1 (mt hiff.2 hge)).trans hhead

/-- What becomes of a group, whatever the order of its objects and runs (R46, R47). -/
structure GroupInto (line : LineNo) (os : List OpenObject) (qs : List LineRun) (m : OpenObject) : Prop where
  leftmost : ∃ o ∈ os, (∀ p ∈ os, o.spanStart ≤ p.spanStart) ∧ m.slotId = o.slotId ∧ m.long = o.long ∧
    m.cluster = o.cluster ∧ m.merged = (o.merged || decide (2 ≤ os.length))
  lastLine : m.lastLine = line
  start : m.spanStart ∈ qs.map LineRun.first ∧ ∀ c ∈ qs.map LineRun.first, m.spanStart ≤ c
  stop : m.spanEnd ∈ qs.map LineRun.last ∧ ∀ c ∈ qs.map LineRun.last, c ≤ m.spanEnd
  area : m.area = (os.map OpenObject.area).sum + (qs.map LineRun.length).sum
  counts : ∀ p ∈ countOf, p.2 m.counts = (os.map fun o => p.2 o.counts).sum + (qs.map fun q => p.2 q.counts).sum
  cmin : m.cmin ∈ m.spanStart :: os.map OpenObject.cmin ∧ ∀ c ∈ m.spanStart :: os.map OpenObject.cmin, m.cmin ≤ c
  cmax : m.cmax ∈ m.spanEnd :: os.map OpenObject.cmax ∧ ∀ c ∈ m.spanEnd :: os.map OpenObject.cmax, c ≤ m.cmax
  mixed : m.mixed = os.any OpenObject.mixed

theorem foldl_add_length (qs : List LineRun) (a : Nat) :
    qs.foldl (fun n q => n + q.length) a = a + (qs.map LineRun.length).sum := by
  induction qs generalizing a with
  | nil => rfl
  | cons q qs ih => simp only [List.foldl_cons, ih, List.map_cons, List.sum_cons, Nat.add_assoc]

theorem countOf_foldl_add {p : PixelClass × (ClassCounts → Nat)} (hp : p ∈ countOf) (qs : List LineRun) (a : ClassCounts) :
    p.2 (qs.foldl (fun n q => n.add q.counts) a) = p.2 a + (qs.map fun q => p.2 q.counts).sum := by
  induction qs generalizing a with
  | nil => rfl
  | cons q qs ih => simp only [List.foldl_cons, ih, countOf_add hp, List.map_cons, List.sum_cons, Nat.add_assoc]

/-- A merger extended by the runs of its group (R47). -/
theorem MergedInto.extend {os : List OpenObject} {m : OpenObject} (h : MergedInto os m) (line : LineNo) (q : LineRun)
    (qs : List LineRun) : GroupInto line os (q :: qs) (extendObject line (q :: qs) m) where
  leftmost := by
    obtain ⟨o, ho, hleft, hslot, -, hlong, hcluster, hmerged⟩ := h.leftmost
    exact ⟨o, ho, hleft, hslot, hlong, hcluster, hmerged⟩
  lastLine := rfl
  start := foldl_min_spec LineRun.first qs q.first
  stop := foldl_max_spec LineRun.last qs q.last
  area := (foldl_add_length (q :: qs) m.area).trans (by rw [h.area])
  counts p hp := (countOf_foldl_add hp (q :: qs) m.counts).trans (by rw [h.counts p hp])
  cmin := by
    obtain ⟨hmem, hle⟩ := h.cmin
    simp only [extendObject, List.mem_cons, forall_eq_or_imp]
    refine ⟨?_, min_le_right _ _, fun c hc => (min_le_left _ _).trans (hle c hc)⟩
    rcases le_total m.cmin (qs.foldl (fun m q => min m q.first) q.first) with h' | h'
    · exact .inr ((min_eq_left h').symm ▸ hmem)
    · exact .inl (min_eq_right h')
  cmax := by
    obtain ⟨hmem, hle⟩ := h.cmax
    simp only [extendObject, List.mem_cons, forall_eq_or_imp]
    refine ⟨?_, le_max_right _ _, fun c hc => (hle c hc).trans (le_max_left _ _)⟩
    rcases le_total m.cmax (qs.foldl (fun m q => max m q.last) q.last) with h' | h'
    · exact .inl (max_eq_right h')
    · exact .inr ((max_eq_left h').symm ▸ hmem)
  mixed := h.mixed

/-- A group gives an object exactly when it holds an object and a run; then that is its objects merged and extended. -/
theorem groupInto_of_groupObject {line : LineNo} {g : TouchGroup} {m : OpenObject} (h : groupObject line g = some m) :
    GroupInto line g.objects g.runs m := by
  unfold groupObject at h
  split at h
  · rename_i o os q qs ho hq
    rw [← Option.some.inj h, ho, hq]
    exact ((MergedInto.single o).foldl os).extend line q qs
  · cases h

theorem groupObject_isSome {line : LineNo} {g : TouchGroup} (ho : g.objects ≠ []) (hq : g.runs ≠ []) :
    ∃ m, groupObject line g = some m := by
  obtain ⟨o, os, ho⟩ := List.exists_cons_of_ne_nil ho
  obtain ⟨q, qs, hq⟩ := List.exists_cons_of_ne_nil hq
  exact ⟨_, by rw [groupObject, ho, hq]⟩

end Sys2Proof.Machine

/-! ## Proofs: the table after a data line (section 3, R40, R46 to R49) -/
namespace Sys2Proof.Machine

/-- Two spans share no column. -/
def spansApart (a b : OpenObject) : Prop := a.spanEnd < b.spanStart ∨ b.spanEnd < a.spanStart

/-! ### Table order -/

theorem insertObject_perm (o : OpenObject) (ps : List OpenObject) : (insertObject o ps).Perm (o :: ps) := by
  induction ps with
  | nil => exact .refl _
  | cons p ps ih =>
    unfold insertObject
    split
    · exact .refl _
    · exact (ih.cons p).trans (.swap o p ps)

/-- An object whose span is apart from those of a table keeps it in table order (R40). -/
theorem insertObject_inTableOrder {o : OpenObject} {ps : List OpenObject} (ho : o.spanStart ≤ o.spanEnd)
    (hps : inTableOrder ps) (hapart : ∀ p ∈ ps, spansApart o p) : inTableOrder (insertObject o ps) := by
  refine ⟨?_, fun p hp => ?_⟩
  · obtain ⟨hsorted, hproper⟩ := hps
    induction ps with
    | nil => exact List.pairwise_singleton _ _
    | cons p ps ih =>
      obtain ⟨hhead, htail⟩ := List.pairwise_cons.1 hsorted
      have hp := hproper p List.mem_cons_self
      have hop := hapart p List.mem_cons_self
      unfold spansApart at hop
      unfold insertObject
      split
      · refine List.pairwise_cons.2 ⟨fun r hr => ?_, hsorted⟩
        have hbefore : o.spanEnd < p.spanStart := by omega
        rcases List.mem_cons.1 hr with rfl | hr
        · exact hbefore
        · have := hhead r hr
          omega
      · refine List.pairwise_cons.2 ⟨fun r hr => ?_, ih (fun q hq => hapart q (List.mem_cons_of_mem _ hq)) htail
          fun q hq => hproper q (List.mem_cons_of_mem _ hq)⟩
        rcases List.mem_cons.1 ((insertObject_perm o ps).mem_iff.1 hr) with rfl | hr
        · omega
        · exact hhead r hr
  · rcases List.mem_cons.1 ((insertObject_perm o ps).mem_iff.1 hp) with rfl | hp
    · exact ho
    · exact hps.2 p hp

theorem sortObjects_perm (os : List OpenObject) : (sortObjects os).Perm os := by
  induction os with
  | nil => exact .refl _
  | cons o os ih => exact (insertObject_perm o _).trans (ih.cons o)

/-- Objects whose spans are apart stand in table order when sorted (R40). -/
theorem sortObjects_inTableOrder {os : List OpenObject} (hproper : ∀ o ∈ os, o.spanStart ≤ o.spanEnd)
    (hapart : os.Pairwise spansApart) : inTableOrder (sortObjects os) := by
  induction os with
  | nil => exact ⟨.nil, nofun⟩
  | cons o os ih =>
    obtain ⟨hhead, htail⟩ := List.pairwise_cons.1 hapart
    exact insertObject_inTableOrder (hproper o List.mem_cons_self)
      (ih (fun p hp => hproper p (List.mem_cons_of_mem _ hp)) htail)
      fun p hp => hhead p ((sortObjects_perm os).mem_iff.1 hp)

/-! ### The objects that the groups become -/

/-- The objects that the groups of a line become, in table order (R46, R47). -/
def keptObjects (line : LineNo) (objects : List OpenObject) (runs : List LineRun) : List OpenObject :=
  sortObjects ((touchGroups objects runs).filterMap (groupObject line))

section Kept

variable {line : LineNo} {objects : List OpenObject} {runs : List LineRun}

theorem mem_keptObjects {m : OpenObject} :
    m ∈ keptObjects line objects runs ↔ ∃ g ∈ touchGroups objects runs, groupObject line g = some m := by
  rw [keptObjects, (sortObjects_perm _).mem_iff, List.mem_filterMap]

/-- The span of an object reaches from the first to the last run of its group. -/
theorem GroupInto.span {os : List OpenObject} {qs : List LineRun} {m : OpenObject} (h : GroupInto line os qs m) :
    (∃ q ∈ qs, q.first = m.spanStart) ∧ ∃ q ∈ qs, q.last = m.spanEnd :=
  ⟨List.mem_map.1 h.start.1, List.mem_map.1 h.stop.1⟩

theorem GroupInto.proper {os : List OpenObject} {qs : List LineRun} {m : OpenObject} (h : GroupInto line os qs m)
    (hqs : ∀ q ∈ qs, q.first ≤ q.last) : m.spanStart ≤ m.spanEnd := by
  obtain ⟨⟨q, hq, hfirst⟩, -⟩ := h.span
  have h1 := hqs q hq
  have h2 := h.stop.2 q.last (List.mem_map_of_mem hq)
  omega

/-- Two groups become objects with places of their own and spans apart (R46). -/
theorem LineReady.groups_become_apart (h : LineReady objects runs) :
    ((touchGroups objects runs).filterMap (groupObject line)).Pairwise fun a b => a.slotId ≠ b.slotId ∧ spansApart a b := by
  have hdisjoint := (List.nodup_flatMap.1 (h.grouped.objects_perm.nodup_iff.2 h.objects_nodup)).2
  rw [List.pairwise_filterMap]
  refine hdisjoint.imp_of_mem fun {g g'} hg hg' hd m hm m' hm' => ?_
  have hgm := groupInto_of_groupObject hm
  have hgm' := groupInto_of_groupObject hm'
  obtain ⟨o, ho, -, hslot, -⟩ := hgm.leftmost
  obtain ⟨o', ho', -, hslot', -⟩ := hgm'.leftmost
  have hoo : o ≠ o' := fun heq => hd ho (heq ▸ ho')
  have hne : g ≠ g' := by
    rintro rfl
    exact hd ho ho
  refine ⟨fun hsame => hoo ?_, ?_⟩
  · exact List.inj_on_of_nodup_map h.places (h.grouped.mem_objects hg ho) (h.grouped.mem_objects hg' ho')
      (hslot.symm.trans (hsame.trans hslot'))
  · obtain ⟨⟨q1, hq1, e1⟩, q2, hq2, e2⟩ := hgm.span
    obtain ⟨⟨r1, hr1, f1⟩, r2, hr2, f2⟩ := hgm'.span
    rcases h.groups_apart hg hg' hne with hleft | hright
    · have := hleft q2 hq2 r1 hr1
      exact .inl (by omega)
    · have := hright q1 hq1 r2 hr2
      exact .inr (by omega)

theorem LineReady.kept_inTableOrder (h : LineReady objects runs) : inTableOrder (keptObjects line objects runs) := by
  refine sortObjects_inTableOrder (fun m hm => ?_) (h.groups_become_apart.imp fun hab => hab.2)
  obtain ⟨g, hg, hm⟩ := List.mem_filterMap.1 hm
  exact (groupInto_of_groupObject hm).proper fun q hq => h.runs.proper q (h.grouped.mem_runs hg hq)

theorem LineReady.kept_places (h : LineReady objects runs) :
    ((keptObjects line objects runs).map OpenObject.slotId).Nodup := by
  rw [List.Nodup, List.pairwise_map, keptObjects, (sortObjects_perm _).pairwise_iff (fun h => h.symm)]
  exact h.groups_become_apart.imp fun hab => hab.1

/-- The place of an object of the new table that is not new is the place of an object of the old one. -/
theorem LineReady.slotId_of_kept (h : LineReady objects runs) {m : OpenObject} (hm : m ∈ keptObjects line objects runs) :
    ∃ o ∈ objects, m.slotId = o.slotId ∧ m.long = o.long ∧ m.cluster = o.cluster := by
  obtain ⟨g, hg, hm⟩ := mem_keptObjects.1 hm
  obtain ⟨o, ho, -, hslot, hlong, hcluster, -⟩ := (groupInto_of_groupObject hm).leftmost
  exact ⟨o, h.grouped.mem_objects hg ho, hslot, hlong, hcluster⟩

/-! ### The runs that touch nothing -/

/-- The runs of a line that touch no object of the table (R48). -/
def freshRuns (objects : List OpenObject) (runs : List LineRun) : List LineRun :=
  runs.filter fun q => !objects.any fun o => touches q o

theorem LineReady.mem_freshRuns (h : LineReady objects runs) {q : LineRun} :
    q ∈ freshRuns objects runs ↔ q ∈ runs ∧ ∀ o ∈ objects, ¬touching q o := by
  rw [freshRuns, List.mem_filter, Bool.not_eq_true', List.any_eq_false]
  exact and_congr_right fun hq => forall₂_congr fun o ho =>
    not_congr (touches_iff_touching (h.runs.proper q hq) (h.table.2 o ho))

/-- A run that touches nothing is apart from the span of every object that a group becomes. -/
theorem LineReady.fresh_apart_kept (h : LineReady objects runs) {q : LineRun} (hq : q ∈ freshRuns objects runs)
    {m : OpenObject} (hm : m ∈ keptObjects line objects runs) : q.last < m.spanStart ∨ m.spanEnd < q.first := by
  obtain ⟨hq, halone⟩ := h.mem_freshRuns.1 hq
  obtain ⟨g, hg, hm⟩ := mem_keptObjects.1 hm
  have hgm := groupInto_of_groupObject hm
  obtain ⟨⟨q1, hq1, e1⟩, q2, hq2, e2⟩ := hgm.span
  have hrun {r} (hr : r ∈ g.runs) : r ∈ runs := h.grouped.mem_runs hg hr
  have hlink {r s} (hr : r ∈ g.runs) (hs : s ∈ g.runs) := h.grouped.linked g hg (.inr r) (.inr s) hr hs
  obtain ⟨o, ho, -⟩ := hgm.leftmost
  have hout {r} (hr : r ∈ g.runs) : ¬Relation.ReflTransGen (touchStep objects runs) (.inr r) (.inr q) := by
    intro hrq
    have hoq := (h.grouped.linked g hg (.inl o) (.inr r) ho hr).trans hrq
    obtain ⟨b, -, hstep⟩ := (Relation.ReflTransGen.cases_tail hoq).resolve_left (by simp)
    match b, hstep with
    | .inl p, ⟨hp, _, htouch⟩ => exact halone p hp htouch
  rcases pairwise_cases h.runs.apart (hrun hq1) hq with heq | hlt | hgt
  · exact absurd (heq ▸ .refl) (hout hq1)
  · have := h.linked_left hq hlt (hout hq1) (hlink hq1 hq2)
    exact .inr (by omega)
  · exact .inl (by omega)

end Kept

/-! ### Free places -/

theorem freePlace_eq_some {objects : List OpenObject} {i : Nat} (h : freePlace objects = some i) :
    i < 48 ∧ i ∉ objects.map OpenObject.slotId ∧ ∀ j < i, j ∈ objects.map OpenObject.slotId := by
  rw [freePlace, List.find?_range_eq_some] at h
  simp only [Bool.not_eq_true', List.any_eq_false, beq_iff_eq, List.mem_range, Config.objectPlaces, Bool.not_eq_false',
    List.any_eq_true] at h
  obtain ⟨hfree, hlt, hlow⟩ := h
  refine ⟨hlt, fun hmem => ?_, fun j hj => ?_⟩
  · obtain ⟨o, ho, he⟩ := List.mem_map.1 hmem
    exact hfree o ho he
  · obtain ⟨o, ho, he⟩ := hlow j hj
    exact List.mem_map.2 ⟨o, ho, he⟩

theorem freePlace_eq_none {objects : List OpenObject} (h : freePlace objects = none) :
    ∀ i < 48, i ∈ objects.map OpenObject.slotId := by
  intro i hi
  rw [freePlace, List.find?_eq_none] at h
  have := h i (List.mem_range.2 hi)
  simp only [Bool.not_eq_true', Bool.not_eq_false, List.any_eq_true, beq_iff_eq] at this
  exact List.mem_map.2 this

/-- In a table with distinct places below 48 a place is free exactly while fewer than 48 objects stand in it. -/
theorem freePlace_isSome_iff {objects : List OpenObject} (hplaces : (objects.map OpenObject.slotId).Nodup)
    (hrange : ∀ o ∈ objects, o.slotId < 48) : (freePlace objects).isSome ↔ objects.length < 48 := by
  have hsub : objects.map OpenObject.slotId ⊆ List.range 48 := fun i hi => by
    obtain ⟨o, ho, rfl⟩ := List.mem_map.1 hi
    exact List.mem_range.2 (hrange o ho)
  constructor
  · intro h
    obtain ⟨i, hi⟩ := Option.isSome_iff_exists.1 h
    obtain ⟨hlt, hfree, -⟩ := freePlace_eq_some hi
    have hnodup : (i :: objects.map OpenObject.slotId).Nodup := List.nodup_cons.2 ⟨hfree, hplaces⟩
    have := (hnodup.subperm (List.cons_subset.2 ⟨List.mem_range.2 hlt, hsub⟩)).length_le
    simpa using this
  · intro h
    by_contra hnone
    rw [Option.not_isSome_iff_eq_none] at hnone
    have hall : List.range 48 ⊆ objects.map OpenObject.slotId := fun i hi =>
      freePlace_eq_none hnone i (List.mem_range.1 hi)
    have := (List.nodup_range.subperm hall).length_le
    simp only [List.length_range, List.length_map] at this
    omega

/-! ### New objects -/

/-- Only the places taken in a table count for a new object. -/
theorem newFrom_congr {line : LineNo} {q : LineRun} {t t' : List OpenObject} {n : OpenObject} (hperm : t.Perm t')
    (h : newFrom line q t n) : newFrom line q t' n := by
  obtain ⟨heq, hlt, hfree, hlow⟩ := h
  have hmem (i : Nat) : i ∈ t.map OpenObject.slotId ↔ i ∈ t'.map OpenObject.slotId := (hperm.map _).mem_iff
  exact ⟨heq, hlt, mt (hmem _).2 hfree, fun j hj => (hmem j).1 (hlow j hj)⟩

theorem newFrom_newObject {line : LineNo} {q : LineRun} {t : List OpenObject} {i : Nat} (h : freePlace t = some i) :
    newFrom line q t (newObject line i q) := ⟨rfl, freePlace_eq_some h⟩

/-- What offering places to runs leaves: new objects for the first of them, as many as there are places (R48, R49). -/
structure Placed (line : LineNo) (objects : List OpenObject) (rs : List LineRun) (fresh table : List OpenObject)
    (untracked : List LineRun) : Prop where
  length : fresh.length = min rs.length (48 - objects.length)
  new : ∀ (i : Nat) (q : LineRun) (n : OpenObject), rs[i]? = some q → fresh[i]? = some n →
    newFrom line q (objects ++ fresh.take i) n
  untracked : untracked = rs.drop fresh.length
  perm : table.Perm (objects ++ fresh)
  order : inTableOrder table
  places : (table.map OpenObject.slotId).Nodup
  range : ∀ o ∈ table, o.slotId < 48

theorem placeRuns_placed {line : LineNo} {objects : List OpenObject} {rs : List LineRun} (horder : inTableOrder objects)
    (hplaces : (objects.map OpenObject.slotId).Nodup) (hrange : ∀ o ∈ objects, o.slotId < 48) (hrs : RunsApart rs)
    (hapart : ∀ q ∈ rs, ∀ o ∈ objects, q.last < o.spanStart ∨ o.spanEnd < q.first) :
    ∃ fresh, Placed line objects rs fresh (placeRuns line objects rs).1 (placeRuns line objects rs).2 := by
  induction rs generalizing objects with
  | nil =>
    exact ⟨[], ⟨by simp, by simp, rfl, by simp [placeRuns], horder, hplaces, hrange⟩⟩
  | cons q rs ih =>
    have hsome := freePlace_isSome_iff hplaces hrange
    cases hfree : freePlace objects with
    | none =>
      have hplaced : placeRuns line objects (q :: rs) = (objects, q :: rs) := by simp only [placeRuns, hfree]
      rw [hplaced]
      have hfull : ¬objects.length < 48 := by
        intro hlt
        rw [← hsome, hfree] at hlt
        cases hlt
      exact ⟨[], ⟨by simp; omega, by simp, rfl, by simp, horder, hplaces, hrange⟩⟩
    | some i =>
      obtain ⟨hlt, hnew, hlow⟩ := freePlace_eq_some hfree
      have hroom : objects.length < 48 := hsome.1 (by rw [hfree]; rfl)
      have hperm := insertObject_perm (newObject line i q) objects
      obtain ⟨hqs, hrest⟩ := List.pairwise_cons.1 hrs.apart
      have hq := hrs.proper q List.mem_cons_self
      have hplaced : placeRuns line objects (q :: rs) = placeRuns line (insertObject (newObject line i q) objects) rs := by
        simp only [placeRuns, hfree]
      obtain ⟨fresh, h⟩ := ih (objects := insertObject (newObject line i q) objects)
        (insertObject_inTableOrder hq horder fun o ho => hapart q List.mem_cons_self o ho)
        ((hperm.map _).nodup_iff.2 (List.nodup_cons.2 ⟨hnew, hplaces⟩))
        (fun o ho => by
          rcases List.mem_cons.1 (hperm.mem_iff.1 ho) with rfl | ho
          · exact hlt
          · exact hrange o ho)
        ⟨hrest, fun r hr => hrs.proper r (List.mem_cons_of_mem _ hr)⟩
        (fun r hr o ho => by
          rcases List.mem_cons.1 (hperm.mem_iff.1 ho) with rfl | ho
          · have := hqs r hr
            exact .inr (show q.last < r.first by omega)
          · exact hapart r (List.mem_cons_of_mem _ hr) o ho)
      rw [hplaced]
      have hswap (l : List OpenObject) :
          (insertObject (newObject line i q) objects ++ l).Perm (objects ++ newObject line i q :: l) :=
        (hperm.append_right l).trans List.perm_middle.symm
      refine ⟨newObject line i q :: fresh, ⟨?_, ?_, h.untracked, h.perm.trans (hswap fresh), h.order, h.places, h.range⟩⟩
      · have := h.length
        have := hperm.length_eq
        simp only [List.length_cons] at *
        omega
      · intro j r n hr hn
        cases j with
        | zero =>
          simp only [List.getElem?_cons_zero, Option.some.injEq] at hr hn
          subst hr hn
          simpa using newFrom_newObject (line := line) (q := q) hfree
        | succ j =>
          simp only [List.getElem?_cons_succ] at hr hn
          rw [List.take_succ_cons]
          exact newFrom_congr (hswap _) (h.new j r n hr hn)

/-! ### The whole line -/

/-- What a data line leaves of a table, before MIXED is marked (R43 to R52). -/
theorem LineReady.trackLine_placed {line : LineNo} {g : GradeBlock} {cs : List PixelClass} {objects : List OpenObject}
    (h : LineReady objects (runsOf cs)) (hrange : ∀ o ∈ objects, o.slotId < 48) :
    ∃ fresh table, Placed line (keptObjects line objects (runsOf cs)) (freshRuns objects (runsOf cs)) fresh table
        (trackLine g line cs objects).untracked ∧
      (trackLine g line cs objects).table = table.filter (fun o => !decide (g.maxLines ≤ o.lines)) ∧
      (trackLine g line cs objects).forced =
        (table.filter fun o => decide (g.maxLines ≤ o.lines)).map fun o => closeObject g.maxArea { o with long := true } := by
  have hfresh : RunsApart (freshRuns objects (runsOf cs)) :=
    ⟨h.runs.apart.filter _, fun q hq => h.runs.proper q (List.mem_filter.1 hq).1⟩
  obtain ⟨fresh, hplaced⟩ := placeRuns_placed (line := line) h.kept_inTableOrder h.kept_places
    (fun m hm => by
      obtain ⟨o, ho, hslot, -⟩ := h.slotId_of_kept hm
      exact hslot ▸ hrange o ho)
    hfresh fun q hq m hm => h.fresh_apart_kept hq hm
  exact ⟨fresh, _, hplaced, rfl, rfl⟩

theorem Lane.TableSound.of_objects {x y : Lane} (h : x.TableSound) (hobjects : y.objects = x.objects) : y.TableSound := by
  obtain ⟨h1, h2, h3, h4, h5, h6⟩ := h
  exact ⟨hobjects ▸ h1, hobjects ▸ h2, hobjects ▸ h3, hobjects ▸ h4, hobjects ▸ h5, hobjects ▸ h6⟩

theorem Lane.TableSound.of_nil {x : Lane} (h : x.objects = []) : x.TableSound := by
  constructor <;> simp [h]

/-- A change of MIXED keeps a table sound (R36, R55). -/
theorem Lane.TableSound.markMixed {x y : Lane} (h : x.TableSound) (b : OpenObject → Bool)
    (hobjects : y.objects = x.objects.map fun o => { o with mixed := b o }) : y.TableSound where
  places := by simpa [hobjects, Function.comp_def] using h.places
  range := by simpa [hobjects] using h.range
  area := by simpa [hobjects] using h.area
  spans := by simpa [hobjects, List.pairwise_map] using h.spans
  hulls := by simpa [hobjects] using h.hulls
  flags := by simpa [hobjects] using h.flags

theorem Lane.TableSound.lineReady {x : Lane} (h : x.TableSound) (cs : List PixelClass) : LineReady x.objects (runsOf cs) where
  table := ⟨h.spans, fun o ho => by obtain ⟨-, h2, -⟩ := h.hulls o ho; exact h2⟩
  places := h.places
  runs := runsOf_apart cs

/-- The totals of a list of counts sum up class by class. -/
theorem sum_map_total {α : Type} (l : List α) (f : α → ClassCounts) :
    (l.map fun a => (f a).total).sum = (countOf.map fun p => (l.map fun a => p.2 (f a)).sum).sum := by
  induction l with
  | nil => rfl
  | cons a l ih =>
    rw [List.map_cons, List.sum_cons, ih]
    simp only [List.map_cons, List.sum_cons, countOf, List.map_nil, List.sum_nil, ClassCounts.total]
    omega

theorem total_eq_sum (n : ClassCounts) : n.total = (countOf.map fun p => p.2 n).sum := by
  simp only [countOf, List.map_cons, List.map_nil, List.sum_cons, List.sum_nil, ClassCounts.total]
  omega

/-- The object a group becomes has counts that sum to its area, if its objects and runs have. -/
theorem GroupInto.total_eq_area {line : LineNo} {os : List OpenObject} {qs : List LineRun} {m : OpenObject}
    (h : GroupInto line os qs m) (hos : ∀ o ∈ os, o.counts.total = o.area) (hqs : ∀ q ∈ qs, q.counts.total = q.length) :
    m.counts.total = m.area := by
  have hcounts : countOf.map (fun p => p.2 m.counts) = countOf.map fun p =>
      (os.map fun o => p.2 o.counts).sum + (qs.map fun q => p.2 q.counts).sum := List.map_congr_left h.counts
  have hos' : os.map OpenObject.area = os.map fun o => o.counts.total := List.map_congr_left fun o ho => (hos o ho).symm
  have hqs' : qs.map LineRun.length = qs.map fun q => q.counts.total := List.map_congr_left fun q hq => (hqs q hq).symm
  rw [total_eq_sum, hcounts, h.area, hos', hqs', sum_map_total, sum_map_total, ← List.sum_map_add]

/-- What is asked of each object of a sound table by itself (R40, R41, R56). -/
structure ObjectSound (o : OpenObject) : Prop where
  area : o.counts.total = o.area
  hull : o.cmin ≤ o.spanStart ∧ o.spanStart ≤ o.spanEnd ∧ o.spanEnd ≤ o.cmax ∧ o.cmax < 1024
  flags : o.long = false ∧ o.cluster = false

theorem Lane.TableSound.object {x : Lane} (h : x.TableSound) {o : OpenObject} (ho : o ∈ x.objects) : ObjectSound o :=
  ⟨h.area o ho, h.hulls o ho, h.flags o ho⟩

theorem GroupInto.sound {line : LineNo} {os : List OpenObject} {qs : List LineRun} {m : OpenObject} {cs : List PixelClass}
    (h : GroupInto line os qs m) (hos : ∀ o ∈ os, ObjectSound o) (hqs : ∀ q ∈ qs, q.Of cs) (hcs : cs.length ≤ 1024) :
    ObjectSound m where
  area := h.total_eq_area (fun o ho => (hos o ho).area) fun q hq => (hqs q hq).total_eq_length
  hull := by
    have hproper := h.proper fun q hq => (hqs q hq).proper
    have hcmin := h.cmin.2 _ List.mem_cons_self
    have hcmax := h.cmax.2 _ List.mem_cons_self
    refine ⟨hcmin, hproper, hcmax, ?_⟩
    rcases List.mem_cons.1 h.cmax.1 with hend | hold
    · obtain ⟨q, hq, hlast⟩ := h.span.2
      have := (hqs q hq).inside
      omega
    · obtain ⟨o, ho, he⟩ := List.mem_map.1 hold
      obtain ⟨-, -, -, hlt⟩ := (hos o ho).hull
      omega
  flags := by
    obtain ⟨o, ho, -, -, hlong, hcluster, -⟩ := h.leftmost
    rw [hlong, hcluster]
    exact (hos o ho).flags

theorem newFrom_sound {line : LineNo} {q : LineRun} {t : List OpenObject} {n : OpenObject} {cs : List PixelClass}
    (h : newFrom line q t n) (hq : q.Of cs) (hcs : cs.length ≤ 1024) : ObjectSound n := by
  obtain ⟨heq, -⟩ := h
  rw [heq]
  have hproper := hq.proper
  have hinside := hq.inside
  exact ⟨hq.total_eq_length, ⟨le_rfl, hproper, le_rfl, show q.last < 1024 by omega⟩, rfl, rfl⟩

/-- A data line leaves a sound table sound (R40, R41, R46 to R48). -/
theorem Lane.TableSound.trackLine {x y : Lane} (h : x.TableSound) {g : GradeBlock} {line : LineNo} {cs : List PixelClass}
    (hcs : cs.length ≤ 1024) (hobjects : y.objects = (trackLine g line cs x.objects).table) : y.TableSound := by
  have hready := h.lineReady cs
  obtain ⟨fresh, table, hplaced, htable, -⟩ := hready.trackLine_placed (line := line) (g := g) h.range
  have hsub : y.objects.Sublist table := by
    rw [hobjects, htable]
    exact List.filter_sublist
  have hsound : ∀ o ∈ y.objects, ObjectSound o := by
    intro o ho
    rcases List.mem_append.1 (hplaced.perm.mem_iff.1 (hsub.subset ho)) with hkept | hfresh
    · obtain ⟨gr, hgr, hm⟩ := mem_keptObjects.1 hkept
      exact (groupInto_of_groupObject hm).sound (fun p hp => h.object (hready.grouped.mem_objects hgr hp))
        (fun q hq => runsOf_of cs q (hready.grouped.mem_runs hgr hq)) hcs
    · obtain ⟨i, hi, rfl⟩ := List.mem_iff_getElem.1 hfresh
      have hlen := hplaced.length
      have hi' : i < (freshRuns x.objects (runsOf cs)).length := by omega
      exact newFrom_sound (hplaced.new i _ _ (List.getElem?_eq_getElem hi') (List.getElem?_eq_getElem hi))
        (runsOf_of cs _ (List.mem_filter.1 (List.getElem_mem hi')).1) hcs
  exact
    { places := hplaced.places.sublist (hsub.map _)
      range := fun o ho => hplaced.range o (hsub.subset ho)
      area := fun o ho => (hsound o ho).area
      spans := hplaced.order.1.sublist hsub
      hulls := fun o ho => (hsound o ho).hull
      flags := fun o ho => (hsound o ho).flags }

end Sys2Proof.Machine

/-! ## Proofs: the statement on data lines (section 3)

The groups of the tracker against the classes of touching, and the object each becomes against R46 and R47. -/
namespace Sys2Proof.Machine

/-! ### One group, read in table order -/

theorem GroupInto.perm {line : LineNo} {os os' : List OpenObject} {qs qs' : List LineRun} {m : OpenObject}
    (h : GroupInto line os qs m) (hos : os.Perm os') (hqs : qs.Perm qs') : GroupInto line os' qs' m where
  leftmost := by
    obtain ⟨o, ho, hleft, hslot, hlong, hcluster, hmerged⟩ := h.leftmost
    exact ⟨o, hos.mem_iff.1 ho, fun p hp => hleft p (hos.mem_iff.2 hp), hslot, hlong, hcluster, hos.length_eq ▸ hmerged⟩
  lastLine := h.lastLine
  start := ⟨(hqs.map _).mem_iff.1 h.start.1, fun c hc => h.start.2 c ((hqs.map _).mem_iff.2 hc)⟩
  stop := ⟨(hqs.map _).mem_iff.1 h.stop.1, fun c hc => h.stop.2 c ((hqs.map _).mem_iff.2 hc)⟩
  area := by rw [h.area, (hos.map _).sum_eq, (hqs.map _).sum_eq]
  counts p hp := by rw [h.counts p hp, (hos.map _).sum_eq, (hqs.map _).sum_eq]
  cmin := ⟨((hos.map _).cons _).mem_iff.1 h.cmin.1, fun c hc => h.cmin.2 c (((hos.map _).cons _).mem_iff.2 hc)⟩
  cmax := ⟨((hos.map _).cons _).mem_iff.1 h.cmax.1, fun c hc => h.cmax.2 c (((hos.map _).cons _).mem_iff.2 hc)⟩
  mixed := h.mixed.trans (by
    rw [Bool.eq_iff_iff, List.any_eq_true, List.any_eq_true]
    exact exists_congr fun o => and_congr_left fun _ => hos.mem_iff)

/-- With its objects in table order and its runs left to right, what a group becomes is what R46 and R47 say. -/
theorem GroupInto.groupBecomes {line : LineNo} {os : List OpenObject} {qs : List LineRun} {m : OpenObject}
    (h : GroupInto line os qs m) (hos : inTableOrder os) (hqs : RunsApart qs)
    (hfirst : m.firstLine ∈ os.map OpenObject.firstLine ∧ ∀ p ∈ os, 0 ≤ (p.firstLine - m.firstLine).toInt) :
    groupBecomes line os qs m := by
  obtain ⟨o, ho, hleft, hslot, hlong, hcluster, hmerged⟩ := h.leftmost
  obtain ⟨o₁, os₁, rfl⟩ := List.exists_cons_of_ne_nil (List.ne_nil_of_mem ho)
  obtain ⟨⟨q₀, hq₀, -⟩, -⟩ := h.span
  obtain ⟨q, qs₁, rfl⟩ := List.exists_cons_of_ne_nil (List.ne_nil_of_mem hq₀)
  obtain rfl : o = o₁ := by
    rcases List.mem_cons.1 ho with heq | hmem
    · exact heq
    · have h1 := (List.pairwise_cons.1 hos.1).1 o hmem
      have h2 := hos.2 o₁ List.mem_cons_self
      have h3 := hleft o₁ List.mem_cons_self
      omega
  have hstart : m.spanStart = q.first := by
    refine le_antisymm (h.start.2 _ (List.mem_map_of_mem List.mem_cons_self)) ?_
    obtain ⟨⟨p, hp, hfirst⟩, -⟩ := h.span
    rcases List.mem_cons.1 hp with rfl | hp
    · exact hfirst.le
    · have h1 := (List.pairwise_cons.1 hqs.apart).1 p hp
      have h2 := hqs.proper q List.mem_cons_self
      omega
  have hstop : m.spanEnd = ((q :: qs₁).getLast (List.cons_ne_nil q qs₁)).last := by
    refine le_antisymm ?_ (h.stop.2 _ (List.mem_map_of_mem (List.getLast_mem _)))
    obtain ⟨-, p, hp, hlast⟩ := h.span
    rcases pairwise_cases hqs.apart hp (List.getLast_mem (List.cons_ne_nil q qs₁)) with heq | hlt | hgt
    · exact hlast ▸ heq ▸ le_rfl
    · have := hqs.proper _ (List.getLast_mem (List.cons_ne_nil q qs₁))
      omega
    · have hsplit := List.dropLast_append_getLast (List.cons_ne_nil q qs₁)
      have hapart := hqs.apart
      rw [← hsplit, List.pairwise_append] at hapart
      rw [← hsplit, List.mem_append, List.mem_singleton] at hp
      rcases hp with hp | hp
      · have := hapart.2.2 p hp _ List.mem_cons_self
        have := hqs.proper p (hsplit ▸ List.mem_append_left _ hp)
        have := hqs.proper _ (List.getLast_mem (List.cons_ne_nil q qs₁))
        omega
      · exact hlast ▸ hp ▸ le_rfl
  have harea : m.area = ((o :: os₁).map OpenObject.area).sum + ((q :: qs₁).map fun q => q.last - q.first + 1).sum := h.area
  exact ⟨o, q, _, rfl, rfl, List.getLast?_eq_getLast_of_ne_nil (List.cons_ne_nil q qs₁), hslot, hstart, hstop, h.lastLine, harea,
    h.counts, hfirst, hstart ▸ h.cmin, hstop ▸ h.cmax, h.mixed, hmerged, hlong, hcluster⟩

/-- R46 and R47 leave no freedom: a group becomes one object. -/
theorem groupBecomes_unique {line : LineNo} {os : List OpenObject} {qs : List LineRun} {m m' : OpenObject}
    (h : groupBecomes line os qs m) (h' : groupBecomes line os qs m') : m = m' := by
  obtain ⟨o, q, r, ho, hq, hr, hslot, hstart, hstop, hline, harea, hcounts, hfirst, hcmin, hcmax, hmixed, hmerged, hlong,
    hcluster⟩ := h
  obtain ⟨o', q', r', ho', hq', hr', hslot', hstart', hstop', hline', harea', hcounts', hfirst', hcmin', hcmax', hmixed',
    hmerged', hlong', hcluster'⟩ := h'
  obtain rfl := Option.some.inj (ho.symm.trans ho')
  obtain rfl := Option.some.inj (hq.symm.trans hq')
  obtain rfl := Option.some.inj (hr.symm.trans hr')
  have ecounts : m.counts = m'.counts := ClassCounts.ext_countOf fun p hp => (hcounts p hp).trans (hcounts' p hp).symm
  have ecmin : m.cmin = m'.cmin := le_antisymm (hcmin.2 _ hcmin'.1) (hcmin'.2 _ hcmin.1)
  have ecmax : m.cmax = m'.cmax := le_antisymm (hcmax'.2 _ hcmax.1) (hcmax.2 _ hcmax'.1)
  have efirst : m.firstLine = m'.firstLine := by
    obtain ⟨p, hp, he⟩ := List.mem_map.1 hfirst.1
    obtain ⟨p', hp', he'⟩ := List.mem_map.1 hfirst'.1
    have h1 := hfirst.2 p' hp'
    have h2 := hfirst'.2 p hp
    rw [he'] at h1
    rw [he] at h2
    rw [BitVec.toInt_eq_toNat_cond] at h1 h2
    bv_omega
  obtain ⟨⟩ := m
  obtain ⟨⟩ := m'
  simp_all only

/-! ### Groups and classes of touching -/

/-- Whether an object, or a run, stands in a group: the group's members in table order, and left to right. -/
def TouchGroup.objectsOf (g : TouchGroup) (objects : List OpenObject) : List OpenObject :=
  objects.filter fun o => decide (o ∈ g.objects)
def TouchGroup.runsOf (g : TouchGroup) (runs : List LineRun) : List LineRun := runs.filter fun q => decide (q ∈ g.runs)

/-- Two parts of a list without repetition that hold the same members are one. -/
theorem sublist_eq_of_mem_iff {α : Type} {l a b : List α} (hl : l.Nodup) (ha : a.Sublist l)
    (hb : b.Sublist l) (h : ∀ x ∈ l, x ∈ a ↔ x ∈ b) : a = b := by
  refine (hl.perm_iff_eq_of_sublist ha hb).1 ((List.perm_ext_iff_of_nodup (hl.sublist ha) (hl.sublist hb)).2 fun x => ?_)
  exact ⟨fun hx => (h x (ha.subset hx)).1 hx, fun hx => (h x (hb.subset hx)).2 hx⟩

namespace LineReady

variable {line : LineNo} {objects : List OpenObject} {runs : List LineRun} {g : TouchGroup}

theorem objectsOf_perm (h : LineReady objects runs) (hg : g ∈ touchGroups objects runs) :
    g.objects.Perm (g.objectsOf objects) := by
  have hnodup := (List.nodup_flatMap.1 (h.grouped.objects_perm.nodup_iff.2 h.objects_nodup)).1 g hg
  refine (List.perm_ext_iff_of_nodup hnodup (h.objects_nodup.filter _)).2 fun o => ?_
  simp only [List.mem_filter, decide_eq_true_eq]
  exact ⟨fun ho => ⟨h.grouped.mem_objects hg ho, ho⟩, And.right⟩

theorem runsOf_perm (h : LineReady objects runs) (hg : g ∈ touchGroups objects runs) : g.runs.Perm (g.runsOf runs) := by
  have hnodup := (List.nodup_flatMap.1 (h.grouped.runs_perm.nodup_iff.2 h.runs.nodup)).1 g hg
  refine (List.perm_ext_iff_of_nodup hnodup (h.runs.nodup.filter _)).2 fun q => ?_
  simp only [List.mem_filter, decide_eq_true_eq]
  exact ⟨fun hq => ⟨h.grouped.mem_runs hg hq, hq⟩, And.right⟩

/-- A group of the tracker is the class of touching of each of its objects (R44). -/
theorem groupOf_group (h : LineReady objects runs) (hg : g ∈ touchGroups objects runs) {o : OpenObject}
    (ho : o ∈ g.objects) : groupOf objects runs o (g.objectsOf objects) (g.runsOf runs) := by
  refine ⟨List.filter_sublist, List.filter_sublist, fun p hp => ?_, fun q hq => ?_⟩
  · rw [← h.has_iff_linked hg (a := .inl o) ho]
    simp only [TouchGroup.objectsOf, List.mem_filter, decide_eq_true_eq, TouchGroup.has]
    exact and_iff_right hp
  · rw [← h.has_iff_linked hg (a := .inl o) ho]
    simp only [TouchGroup.runsOf, List.mem_filter, decide_eq_true_eq, TouchGroup.has]
    exact and_iff_right hq

theorem groupOf_unique (h : LineReady objects runs) {o : OpenObject} {os os' : List OpenObject} {qs qs' : List LineRun}
    (hgroup : groupOf objects runs o os qs) (hgroup' : groupOf objects runs o os' qs') : os = os' ∧ qs = qs' := by
  obtain ⟨hos, hqs, ho, hq⟩ := hgroup
  obtain ⟨hos', hqs', ho', hq'⟩ := hgroup'
  exact ⟨sublist_eq_of_mem_iff h.objects_nodup hos hos' fun p hp => (ho p hp).trans (ho' p hp).symm,
    sublist_eq_of_mem_iff h.runs.nodup hqs hqs' fun q hqm => (hq q hqm).trans (hq' q hqm).symm⟩

/-- The object that a group becomes, with its earliest first line (R46, R47). -/
theorem groupBecomes_group (h : LineReady objects runs)
    (hage : ∀ o ∈ objects, (line - o.firstLine).toNat < 2147483648) (hg : g ∈ touchGroups objects runs) {m : OpenObject}
    (hm : groupObject line g = some m) : groupBecomes line (g.objectsOf objects) (g.runsOf runs) m := by
  have hperm := h.objectsOf_perm hg
  refine ((groupInto_of_groupObject hm).perm hperm (h.runsOf_perm hg)).groupBecomes
    ⟨h.table.1.filter _, fun o ho => h.table.2 o (List.mem_filter.1 ho).1⟩
    ⟨h.runs.apart.filter _, fun q hq => h.runs.proper q (List.mem_filter.1 hq).1⟩ ?_
  have hgage : ∀ o ∈ g.objects, (line - o.firstLine).toNat < 2147483648 := fun o ho =>
    hage o (h.grouped.mem_objects hg ho)
  unfold groupObject at hm
  split at hm
  · rename_i o os q qs ho hq
    obtain rfl := Option.some.inj hm
    rw [ho] at hgage hperm
    obtain ⟨hmem, hearliest⟩ := firstLine_foldl (hgage o List.mem_cons_self) fun b hb => hgage b (List.mem_cons_of_mem _ hb)
    rw [hq]
    refine ⟨(hperm.map _).mem_iff.1 hmem, fun p hp => ?_⟩
    have hp := hperm.mem_iff.2 hp
    have h1 := hearliest p.firstLine (List.mem_map_of_mem hp)
    have h2 := hgage p hp
    obtain ⟨b, hb, he⟩ := List.mem_map.1 (show _ ∈ (o :: os).map OpenObject.firstLine from hmem)
    have h3 := hgage b hb
    change _ = (os.foldl mergeObjects o).firstLine at he
    rw [he] at h3
    change 0 ≤ (p.firstLine - (os.foldl mergeObjects o).firstLine).toInt
    rw [BitVec.toInt_eq_toNat_of_lt (by bv_omega)]
    omega
  · cases hm

/-- The objects that the tracker keeps are exactly what the classes with an object and a run become. -/
theorem mem_kept_iff (h : LineReady objects runs) (hage : ∀ o ∈ objects, (line - o.firstLine).toNat < 2147483648)
    (m : OpenObject) :
    m ∈ keptObjects line objects runs ↔
      ∃ o os qs, o ∈ objects ∧ (∃ q ∈ runs, touching q o) ∧ groupOf objects runs o os qs ∧ groupBecomes line os qs m := by
  rw [mem_keptObjects]
  constructor
  · rintro ⟨g, hg, hm⟩
    have hinto := groupInto_of_groupObject hm
    obtain ⟨o, ho, -⟩ := hinto.leftmost
    obtain ⟨⟨q, hq, -⟩, -⟩ := hinto.span
    refine ⟨o, _, _, h.grouped.mem_objects hg ho, ?_, h.groupOf_group hg ho, h.groupBecomes_group hage hg hm⟩
    obtain ⟨b, hstep, -⟩ := (Relation.ReflTransGen.cases_head (h.grouped.linked g hg (.inl o) (.inr q) ho hq)).resolve_left
      (by simp)
    match b, hstep with
    | .inr r, ⟨_, hr, htouch⟩ => exact ⟨r, hr, htouch⟩
  · rintro ⟨o, os, qs, ho, ⟨q, hq, htouch⟩, hgroup, hm⟩
    obtain ⟨g, hg, hog⟩ := h.grouped.exists_of_object ho
    obtain ⟨m', hm'⟩ := groupObject_isSome (line := line) (List.ne_nil_of_mem hog)
      (List.ne_nil_of_mem (h.grouped.closed g hg o hog q hq htouch))
    obtain ⟨rfl, rfl⟩ := h.groupOf_unique hgroup (h.groupOf_group hg hog)
    rw [groupBecomes_unique hm (h.groupBecomes_group hage hg hm')]
    exact ⟨g, hg, hm'⟩

end LineReady

/-! ### The statement -/

theorem gradedInTurn_eq (l : LaneId) (os : List OpenObject) (x : Lane) : gradedInTurn l os x = x.gradeObjects l os := by
  induction os generalizing x with
  | nil => rfl
  | cons o os ih => simp only [gradedInTurn, Lane.gradeObjects, ih]

/-- The hand-overs of a data line: closed objects, untracked runs, force-closed objects (R53), with the mark of R36. -/
theorem dataLine_eq (x : Lane) (l : LaneId) (line : LineNo) (mixed : Bool) (cs : List PixelClass) :
    let r := (trackLine x.grade line cs x.objects).markFormed mixed
    let a := gradedInTurn l r.closed { x with objects := r.table }
    let b := a.1.overflowRuns l line r.untracked
    let c := gradedInTurn l r.forced b.1
    x.dataLine l line mixed cs = (c.1, a.2 ++ b.2 ++ c.2) := by
  simp only [gradedInTurn_eq]
  rfl

/-- Settles O39: the runs are those of `runsFrom`, the groups are the classes of touching, and new objects take the lowest free
places in turn. -/
theorem runsAreTheMaximalStretches : Obligations.RunsAreTheMaximalStretches := by
  refine ⟨fun cs => ?_, fun g line cs objects runs r untouched alone horder hplaces hobjects hruns huntouched halone hr => ?_,
    fun x l line mixed cs r mark a b c hr hmark ha hb hc => ?_⟩
  · exact ⟨(runsOf_apart cs).apart, fun r hr => ⟨(runsOf_of cs r hr).proper, (runsOf_of cs r hr).inside⟩,
      fun c h => mem_runsOf_iff cs h, fun r hr => (runsOf_of cs r hr).counted⟩
  · subst hruns hr
    have hready : LineReady objects (runsOf cs) := ⟨horder, hplaces, runsOf_apart cs⟩
    have htouch {q} (hq : q ∈ runsOf cs) {o} (ho : o ∈ objects) : touches q o = true ↔ touching q o :=
      touches_iff_touching ((runsOf_apart cs).proper q hq) (horder.2 o ho)
    have hclosed : objects.filter (fun o => !(runsOf cs).any fun q => touches q o) = objects.filter untouched := by
      refine List.filter_congr fun o ho => ?_
      rw [Bool.eq_iff_iff, huntouched o, Bool.not_eq_true', List.any_eq_false]
      exact forall₂_congr fun q hq => not_congr (htouch hq ho)
    have hfresh : freshRuns objects (runsOf cs) = (runsOf cs).filter alone := by
      refine List.filter_congr fun q hq => ?_
      rw [Bool.eq_iff_iff, halone q, Bool.not_eq_true', List.any_eq_false]
      exact forall₂_congr fun o ho => not_congr (htouch hq ho)
    obtain ⟨fresh, table, hplaced, htable, hforced⟩ := hready.trackLine_placed (line := line) (g := g)
      fun o ho => (hobjects o ho).1
    rw [hfresh] at hplaced
    refine ⟨congrArg (List.map (closing g)) hclosed, keptObjects line objects (runsOf cs), fresh, table,
      hready.kept_inTableOrder, fun m => ?_, hplaced.length, hplaced.new, hplaced.untracked, hplaced.perm, hplaced.order, ?_,
      hforced⟩
    · rw [hready.mem_kept_iff fun o ho => (hobjects o ho).2]
      refine exists_congr fun o => exists_congr fun os => exists_congr fun qs => and_congr_right fun _ => ?_
      refine and_congr_left' ?_
      rw [← Bool.not_eq_true, huntouched o]
      push Not
      exact Iff.rfl
    · rw [htable]
      refine List.filter_congr fun o _ => ?_
      rw [← decide_not]
      exact decide_eq_decide.2 not_le
  · have hmark' : mark = fun o => { o with mixed := o.mixed || mixed } := by
      rw [hmark]
      funext o
      cases mixed <;> simp
    subst hr ha hb hc
    rw [hmark']
    exact dataLine_eq x l line mixed cs

end Sys2Proof.Machine

/-! ## Proofs: what grading a line's objects does to a lane (sections 4 and 5.2)

Placing firings changes the firing queue, the entries of windows that have begun, and a few counters. Everything else of the
lane stays, and no valve opens, closes or empties its pending slot by it. -/
namespace Sys2Proof.Machine

/-! ### The firing queue -/

/-- Taking out a valve's last entry shortens the queue by one. -/
theorem removeLast_length {v : Fin 64} {q : List Firing} (h : ∃ f ∈ q, f.valve = v) :
    (removeLast v q).length + 1 = q.length := by
  induction q with
  | nil => simp at h
  | cons g gs ih =>
    unfold removeLast
    split
    · rfl
    · rename_i hnot
      have hlater : ∃ f ∈ gs, f.valve = v := by
        obtain ⟨f, hf, hv⟩ := h
        rcases List.mem_cons.1 hf with rfl | hf
        · by_contra hnone
          push Not at hnone
          simp only [hv, beq_self_eq_true, Bool.true_and, Bool.not_eq_true, Bool.not_eq_false', List.any_eq_true,
            beq_iff_eq] at hnot
          obtain ⟨g, hg, hgv⟩ := hnot
          exact hnone g hg hgv
        · exact ⟨f, hf, hv⟩
      simp only [List.length_cons, ih hlater]

theorem latestWindow_queued {x : Lane} {v : Fin 64} {w : Firing} (h : x.latestWindow v = .queued w) :
    (entriesOf v x.firings).getLast? = some w := by
  unfold Lane.latestWindow at h
  repeat' split at h
  all_goals first | cases h; assumption | cases h

theorem latestWindow_pending {x : Lane} {v : Fin 64} {w : Firing} (h : x.latestWindow v = .pending w) :
    (entriesOf v x.firings).getLast? = none ∧ (x.valve v).pending = some w := by
  unfold Lane.latestWindow at h
  repeat' split at h
  all_goals first | cases h; exact ⟨by assumption, by assumption⟩ | cases h

/-- A valve with an entry in the queue. -/
theorem exists_of_entriesOf {v : Fin 64} {q : List Firing} {w : Firing} (h : (entriesOf v q).getLast? = some w) :
    ∃ f ∈ q, f.valve = v := by
  have := List.mem_filter.1 (List.mem_of_getLast? h)
  exact ⟨w, this.1, by simpa using this.2⟩

/-! ### A lane that has graded -/

/-- What placing firings and counting decisions may change of a lane's counters. -/
def Counters.SameButGraded (c d : Counters) : Prop :=
  d = { c with
    objectsClosed := d.objectsClosed, untrackedRuns := d.untrackedRuns, accepted := d.accepted, fragments := d.fragments
    rejectedStone := d.rejectedStone, rejectedForeign := d.rejectedForeign, rejectedLong := d.rejectedLong
    rejectedDark := d.rejectedDark, rejectedYellow := d.rejectedYellow, rejectedChalk := d.rejectedChalk
    missedNoValve := d.missedNoValve, missedLate := d.missedLate, missedValveBusy := d.missedValveBusy
    missedQueueFull := d.missedQueueFull }

/-- What grading does to a lane: the firing queue grows within its places, windows that have begun take other entries, and the
counters of decisions, untracked runs and missed placements change. -/
structure Lane.Graded (x y : Lane) : Prop where
  same : y = { x with firings := y.firings, valves := y.valves, counters := y.counters }
  counts : x.counters.SameButGraded y.counters
  balanced : x.counters.Balanced → y.counters.Balanced
  firings : y.firings.length ≤ max x.firings.length Config.firingPlaces
  opening : ∀ v, (y.valve v).opening.isSome = (x.valve v).opening.isSome
  pending : ∀ v, (y.valve v).pending.isSome = (x.valve v).pending.isSome

namespace Lane.Graded

variable {x y z : Lane}

theorem refl (x : Lane) : x.Graded x := ⟨rfl, rfl, id, le_max_left _ _, fun _ => rfl, fun _ => rfl⟩

theorem trans (h : x.Graded y) (k : y.Graded z) : x.Graded z where
  same := by
    have hk := k.same
    rw [h.same] at hk
    exact hk
  counts := by
    have hk := k.counts
    unfold Counters.SameButGraded at *
    rw [h.counts] at hk
    exact hk
  balanced := k.balanced ∘ h.balanced
  firings := k.firings.trans (max_le h.firings (le_max_right _ _))
  opening v := (k.opening v).trans (h.opening v)
  pending v := (k.pending v).trans (h.pending v)

/-- Counters alone, of those that grading may change. -/
theorem of_counters {c : Counters} (h : x.counters.SameButGraded c) (hb : x.counters.Balanced → c.Balanced) :
    x.Graded { x with counters := c } := ⟨rfl, h, hb, le_max_left _ _, fun _ => rfl, fun _ => rfl⟩

/-- The firing queue alone, within its places. -/
theorem of_firings {q : List Firing} (h : q.length ≤ max x.firings.length Config.firingPlaces) :
    x.Graded { x with firings := q } := ⟨rfl, rfl, id, h, fun _ => rfl, fun _ => rfl⟩

/-- One valve alone, which stays open or shut and keeps its pending slot full or empty. -/
theorem of_setValve {v : Fin 64} {w : Valve} (ho : w.opening.isSome = (x.valve v).opening.isSome)
    (hp : w.pending.isSome = (x.valve v).pending.isSome) : x.Graded (x.setValve v w) where
  same := rfl
  counts := rfl
  balanced := id
  firings := le_max_left _ _
  opening u := by
    by_cases h : u = v
    · rw [h, valve_setValve_self, ho]
    · rw [valve_setValve_ne _ _ h]
  pending u := by
    by_cases h : u = v
    · rw [h, valve_setValve_self, hp]
    · rw [valve_setValve_ne _ _ h]

end Lane.Graded

theorem setFiring_opening (y : Valve) (f : Firing) : (y.setFiring f).opening.isSome = y.opening.isSome := by
  unfold Valve.setFiring
  split <;> simp [Valve.opening, *]

theorem setFiring_pending (y : Valve) (f : Firing) : (y.setFiring f).pending = y.pending := by
  unfold Valve.setFiring
  split <;> rfl

theorem graded_addEntry (x : Lane) (n : Firing) : x.Graded (x.addEntry n).1 := by
  unfold Lane.addEntry
  split
  · refine .of_firings ?_
    rw [insertFiring_length]
    omega
  · exact .refl x

theorem graded_placeAfter (x : Lane) (w n : Firing) {rejoin : Firing → Lane} (h : ∀ w', x.Graded (rejoin w')) :
    x.Graded (x.placeAfter w n rejoin).1 := by
  unfold Lane.placeAfter
  split
  · split
    · exact h _
    · exact .refl x
  · exact graded_addEntry x n

/-- A firing placed joins a window or becomes an entry (R81 to R85). -/
theorem graded_placeFiring (x : Lane) (n : Firing) : x.Graded (x.placeFiring n).1 := by
  unfold Lane.placeFiring
  dsimp only
  split
  · rename_i w hw
    have hentry := exists_of_entriesOf (latestWindow_queued hw)
    split
    · split
      · refine .of_firings ?_
        have := removeLast_length hentry
        rw [insertFiring_length]
        omega
      · exact .refl x
    · exact graded_placeAfter x w n fun w' => .of_firings ((replaceLast_length _ _ _).trans_le (le_max_left _ _))
  · rename_i w hw
    obtain ⟨-, hpending⟩ := latestWindow_pending hw
    exact graded_placeAfter x w n fun w' => .of_setValve rfl (by rw [hpending]; rfl)
  · rename_i w hw
    exact graded_placeAfter x w n fun w' => .of_setValve (setFiring_opening _ _) (by rw [setFiring_pending])
  · split
    · split
      · split
        · exact .refl x
        · exact graded_addEntry x _
      · exact graded_addEntry x n
    · exact graded_addEntry x n
  · exact graded_addEntry x n

/-- A placement is refused for a busy valve or a full queue, and for nothing else (R81 to R85). -/
theorem placeFiring_missed {x : Lane} {n : Firing} {r : MissReason} (h : (x.placeFiring n).2 = .missed r) :
    r = .valveBusy ∨ r = .queueFull := by
  have hadd {n : Firing} (h : (x.addEntry n).2 = .missed r) : r = .valveBusy ∨ r = .queueFull := by
    unfold Lane.addEntry at h
    split at h
    · cases h
    · cases h; exact .inr rfl
  have hafter {w n : Firing} {f : Firing → Lane} (h : (x.placeAfter w n f).2 = .missed r) :
      r = .valveBusy ∨ r = .queueFull := by
    unfold Lane.placeAfter at h
    split at h
    · split at h
      · cases h
      · cases h; exact .inl rfl
    · exact hadd h
  unfold Lane.placeFiring at h
  dsimp only at h
  split at h
  · split at h
    · split at h
      · cases h
      · cases h; exact .inl rfl
    · exact hafter h
  · exact hafter h
  · exact hafter h
  · split at h
    · split at h
      · split at h
        · cases h; exact .inl rfl
        · exact hadd h
      · exact hadd h
    · exact hadd h
  · exact hadd h

theorem graded_countMissed (x : Lane) {r : MissReason}
    (h : r = .noValve ∨ r = .late ∨ r = .valveBusy ∨ r = .queueFull) (n : Nat) : x.Graded (x.countMissed r n) := by
  rcases h with rfl | rfl | rfl | rfl <;> exact .of_counters rfl id

theorem graded_place (x : Lane) (n : Firing) : x.Graded (x.place n).1 := by
  have hplace := graded_placeFiring x n
  have hmiss {r} (h : (x.placeFiring n).2 = .missed r) := placeFiring_missed h
  unfold Lane.place
  split
  · rename_i heq
    rwa [heq] at hplace
  · rename_i heq
    rw [heq] at hplace hmiss
    exact hplace.trans (graded_countMissed _ (.inr (.inr (hmiss rfl))) 1)

theorem graded_handFiring (n : Firing) (a : Lane × FiringTally) (v : Nat) : a.1.Graded (handFiring n a v).1 := by
  have hplace := graded_place a.1 { n with valve := Fin.ofNat 64 v }
  unfold handFiring
  split <;> rename_i heq <;> rwa [heq] at hplace

theorem graded_foldl_handFiring (n : Firing) (vs : List Nat) (a : Lane × FiringTally) :
    a.1.Graded (vs.foldl (handFiring n) a).1 := by
  induction vs generalizing a with
  | nil => exact .refl _
  | cons v vs ih => exact (graded_handFiring n a v).trans (ih _)

theorem graded_handFirings (x : Lane) (s : ValveSpan) (n : Firing) : x.Graded (x.handFirings s n).1 :=
  graded_foldl_handFiring _ _ (x, {})

theorem graded_ejectSpan (x : Lane) (a b : Nat) (f g : LineNo) : x.Graded (x.ejectSpan a b f g).1 := by
  unfold Lane.ejectSpan
  dsimp only
  split
  · exact graded_countMissed x (.inl rfl) 1
  · split
    · exact graded_countMissed x (.inr (.inl rfl)) _
    · exact graded_handFirings x _ _
    · exact graded_handFirings x _ _

/-- A closed object is counted with its one decision (R66). -/
theorem graded_decision (x : Lane) (d : Decision) :
    x.Graded (x.count fun c => ({ c with objectsClosed := c.objectsClosed + 1 } : Counters).decision d) := by
  refine .of_counters ?_ fun h => ?_
  · rcases d with _ | _ | r
    · rfl
    · rfl
    · cases r <;> rfl
  · unfold Counters.Balanced at *
    rcases d with _ | _ | r
    · simp only [Counters.decision, h]; ring
    · simp only [Counters.decision, h]; ring
    · cases r <;> simp only [Counters.decision, h] <;> ring

theorem graded_gradeObject (x : Lane) (l : LaneId) (o : OpenObject) : x.Graded (x.gradeObject l o).1 := by
  have hcount := graded_decision x (decideObject x.grade o)
  unfold Lane.gradeObject
  dsimp only
  split
  · exact hcount
  · exact hcount
  · exact hcount.trans (graded_ejectSpan _ _ _ _ _)

theorem graded_gradeObjects (x : Lane) (l : LaneId) (os : List OpenObject) : x.Graded (x.gradeObjects l os).1 := by
  induction os generalizing x with
  | nil => exact .refl x
  | cons o os ih => exact (graded_gradeObject x l o).trans (ih _)

theorem graded_overflowRuns (x : Lane) (l : LaneId) (line : LineNo) (rs : List LineRun) :
    x.Graded (x.overflowRuns l line rs).1 := by
  unfold Lane.overflowRuns
  split
  · exact .refl x
  · rename_i r rs
    have hcount : x.Graded
        (x.count fun c => { c with untrackedRuns := c.untrackedRuns + BitVec.ofNat 32 (r :: rs).length }) :=
      .of_counters rfl id
    have hfold (qs : List LineRun) (y : Lane) : y.Graded (qs.foldl (fun y q => y.gradeOverflow line q) y) := by
      induction qs generalizing y with
      | nil => exact .refl y
      | cons q qs ih => exact (graded_ejectSpan y _ _ _ _).trans (ih _)
    dsimp only
    split
    · exact hcount.trans (hfold _ _)
    · exact hcount

/-- A void line empties the table and grades its objects (R54). -/
theorem graded_voidLine (x : Lane) (l : LaneId) : ({ x with objects := [] } : Lane).Graded (x.voidLine l).1 :=
  graded_gradeObjects _ _ _

/-- A data line leaves the tracker's table and grades what it hands over (R53). -/
theorem graded_dataLine (x : Lane) (l : LaneId) (line : LineNo) (mixed : Bool) (cs : List PixelClass) :
    ({ x with objects := ((trackLine x.grade line cs x.objects).markFormed mixed).table } : Lane).Graded
      (x.dataLine l line mixed cs).1 :=
  ((graded_gradeObjects _ _ _).trans (graded_overflowRuns _ _ _ _)).trans (graded_gradeObjects _ _ _)

end Sys2Proof.Machine

/-! ## Proofs: what no block's work on a lane breaks (R40, R41, R66, R80, R96, R114, R156)

`Lane.Kept` collects what every operation on a lane keeps: the bounds of its stores, the equality of R66 and a sound object
table. It is a preorder, so the walk over the operations that follows composes it step by step. -/
namespace Sys2Proof.Machine

/-- From `x` to `y` no store of the lane has grown beyond its bound, balanced counters stay balanced and a sound table stays
sound. -/
structure Lane.Kept (x y : Lane) : Prop where
  firings : y.firings.length ≤ max x.firings.length Config.firingPlaces
  drain : y.drainCount ≤ max x.drainCount Config.drainCountMax
  episode : y.episodeMissed ≤ max x.episodeMissed Config.episodeMissedMax
  tick : y.clock.k ≤ max x.clock.k 15
  balanced : x.counters.Balanced → y.counters.Balanced
  table : x.TableSound → y.TableSound

namespace Lane.Kept

variable {x y z : Lane}

theorem refl (x : Lane) : x.Kept x :=
  ⟨le_max_left _ _, le_max_left _ _, le_max_left _ _, le_max_left _ _, id, id⟩

theorem trans (h : x.Kept y) (k : y.Kept z) : x.Kept z where
  firings := k.firings.trans (max_le h.firings (le_max_right _ _))
  drain := k.drain.trans (max_le h.drain (le_max_right _ _))
  episode := k.episode.trans (max_le h.episode (le_max_right _ _))
  tick := k.tick.trans (max_le h.tick (le_max_right _ _))
  balanced := k.balanced ∘ h.balanced
  table := k.table ∘ h.table

theorem bounded (h : x.Kept y) (hx : x.Bounded) : y.Bounded where
  firings := h.firings.trans (max_le hx.firings le_rfl)
  drain := h.drain.trans (max_le hx.drain le_rfl)
  episode := h.episode.trans (max_le hx.episode le_rfl)
  tick := h.tick.trans (max_le hx.tick le_rfl)

/-- Work that leaves the firing queue, the bounded counts and the object table, and changes no count of R66. -/
theorem of_same (hfirings : y.firings = x.firings) (hdrain : y.drainCount = x.drainCount)
    (hepisode : y.episodeMissed = x.episodeMissed) (htick : y.clock.k = x.clock.k) (hobjects : y.objects = x.objects)
    (hbalanced : x.counters.Balanced → y.counters.Balanced) : x.Kept y where
  firings := hfirings ▸ le_max_left _ _
  drain := hdrain ▸ le_max_left _ _
  episode := hepisode ▸ le_max_left _ _
  tick := htick ▸ le_max_left _ _
  balanced := hbalanced
  table := fun h => h.of_objects hobjects

/-- Work that empties the lane's stores. -/
theorem of_empty (hfirings : y.firings = []) (hdrain : y.drainCount = 0) (hepisode : y.episodeMissed = 0)
    (htick : y.clock.k ≤ max x.clock.k 15) (hobjects : y.objects = []) (hcounters : y.counters = {}) : x.Kept y where
  firings := by simp [hfirings]
  drain := by simp [hdrain]
  episode := by simp [hepisode]
  tick := htick
  balanced := fun _ => by rw [hcounters]; rfl
  table := fun _ => .of_nil hobjects

end Lane.Kept

/-- Grading keeps what is kept. -/
theorem Lane.Graded.kept {x y : Lane} (h : x.Graded y) : x.Kept y where
  firings := h.firings
  drain := by rw [h.same]; exact le_max_left _ _
  episode := by rw [h.same]; exact le_max_left _ _
  tick := by rw [h.same]; exact le_max_left _ _
  balanced := h.balanced
  table := fun hx => hx.of_objects (by rw [h.same])

namespace Lane

/-! ### Modes, recipe, clock -/

/-- A mode change (R158). -/
theorem kept_mode (x : Lane) (m : LaneMode) : x.Kept { x with mode := m, drainDue := false } :=
  .of_same rfl rfl rfl rfl rfl id

theorem kept_drainDue (x : Lane) (b : Bool) : x.Kept { x with drainDue := b } := .of_same rfl rfl rfl rfl rfl id

theorem kept_discardAssembly (x : Lane) : x.Kept x.discardAssembly := .of_same rfl rfl rfl rfl rfl id

/-- LANE_START seeds the lane (R148). -/
theorem kept_started (x : Lane) (e : LineNo) (a b : Nat) :
    x.Kept { x with assembly := none, expected := e, clock := x.clock.seed a b, drainCount := 0 } :=
  ⟨le_max_left _ _, Nat.zero_le _, le_max_left _ _, le_max_right _ _, id, fun h => h.of_objects rfl⟩

theorem kept_drainZero (x : Lane) : x.Kept { x with drainCount := 0 } :=
  ⟨le_max_left _ _, Nat.zero_le _, le_max_left _ _, le_max_left _ _, id, fun h => h.of_objects rfl⟩

/-- A swap marks the open objects MIXED and changes nothing else of the table (R55). -/
theorem kept_takeTable (x : Lane) (bank : Vector Word 1024) (l : LaneId) : x.Kept (x.takeTable bank l) :=
  ⟨le_max_left _ _, le_max_left _ _, le_max_left _ _, le_max_left _ _, id,
    fun h => h.markMixed (fun _ => true) rfl⟩

/-- A clock whose tick number stays. -/
theorem kept_clock (x : Lane) {c : Clock} (h : c.k = x.clock.k) : x.Kept { x with clock := c } :=
  .of_same rfl rfl rfl h rfl id

/-- A clock with a tick number within a line (R114). -/
theorem kept_clock_tick (x : Lane) {c : Clock} (h : c.k ≤ 15) : x.Kept { x with clock := c } :=
  ⟨le_max_left _ _, le_max_left _ _, le_max_left _ _, h.trans (le_max_right _ _), id, fun h => h.of_objects rfl⟩

theorem kept_measureEdge (x : Lane) (m : Nat) : x.Kept (x.measureEdge m) := by
  unfold Lane.measureEdge
  dsimp only
  split
  · exact .of_same rfl rfl rfl rfl rfl id
  · split
    · exact .of_same rfl rfl rfl rfl rfl id
    · exact .refl x

theorem kept_enterCoasting (x : Lane) : x.Kept x.enterCoasting := .of_same rfl rfl rfl rfl rfl id

theorem kept_glitch (x : Lane) : x.Kept x.glitch := .of_same rfl rfl rfl rfl rfl id

/-! ### Stop and fault -/

theorem countMissed_balanced {x : Lane} (r : MissReason) (n : Nat) (h : x.counters.Balanced) :
    (x.countMissed r n).counters.Balanced := by cases r <;> exact h

theorem kept_countMissed (x : Lane) (r : MissReason) (n : Nat) : x.Kept (x.countMissed r n) :=
  .of_same rfl rfl rfl rfl rfl (countMissed_balanced r n)

/-- Changing the valves changes nothing else of the lane. -/
theorem mapValves_same (x : Lane) (f : Valve → Valve) : x.mapValves f = { x with valves := (x.mapValves f).valves } := by
  simp only [Lane.mapValves]

theorem kept_mapValves (x : Lane) (f : Valve → Valve) : x.Kept (x.mapValves f) := by
  rw [mapValves_same]
  exact .of_same rfl rfl rfl rfl rfl id

theorem kept_setValve (x : Lane) (v : Fin 64) (y : Valve) : x.Kept (x.setValve v y) := .of_same rfl rfl rfl rfl rfl id

/-- A firing queue that has lost entries. -/
theorem kept_firings (x : Lane) {q : List Firing} (h : q.length ≤ x.firings.length) : x.Kept { x with firings := q } :=
  ⟨h.trans (le_max_left _ _), le_max_left _ _, le_max_left _ _, le_max_left _ _, id, fun h => h.of_objects rfl⟩

theorem kept_abandonObjects (x : Lane) : x.Kept x.abandonObjects :=
  ⟨le_max_left _ _, le_max_left _ _, le_max_left _ _, le_max_left _ _, id, fun _ => .of_nil rfl⟩

theorem kept_cancelFirings (x : Lane) (l : LaneId) (now : Nat) (r : MissReason) : x.Kept (x.cancelFirings l now r).1 :=
  ((x.kept_mapValves (x.cancelValve now)).trans (kept_firings _ (Nat.zero_le _))).trans (kept_countMissed _ _ _)

/-- Everything a stop or a fault does to the lane's blocks (R17, R57, R99). -/
theorem kept_stopBlocks (x : Lane) (l : LaneId) (now : Nat) (r : MissReason) : x.Kept (x.stopBlocks l now r).1 :=
  ((x.kept_discardAssembly.trans (kept_abandonObjects _)).trans (kept_cancelFirings _ l now r)).trans (kept_clock _ rfl)

/-! ### Line intake -/

theorem kept_stray (x : Lane) : x.Kept x.stray := .of_same rfl rfl rfl rfl rfl id

theorem kept_damaged (x : Lane) : x.Kept x.damaged := .of_same rfl rfl rfl rfl rfl id

theorem kept_expected (x : Lane) (e : LineNo) : x.Kept { x with expected := e } := .of_same rfl rfl rfl rfl rfl id

theorem kept_openLine (x : Lane) (p : BitVec 4) (h : BitVec 16) (n : LineNo) : x.Kept (x.openLine p h n) :=
  .of_same rfl rfl rfl rfl rfl id

theorem kept_frontPixel (x : Lane) (p : BitVec 4) (c : Nat) (d : Word) : x.Kept (x.frontPixel p c d) := by
  unfold Lane.frontPixel
  split
  · split
    · exact .of_same rfl rfl rfl rfl rfl id
    · exact x.kept_stray
  · exact x.kept_stray

theorem kept_rearPixel (x : Lane) (p : BitVec 4) (c : Nat) (d : Word) : x.Kept (x.rearPixel p c d) := by
  unfold Lane.rearPixel
  split
  · split
    · exact .of_same rfl rfl rfl rfl rfl id
    · exact x.kept_stray
  · exact x.kept_stray

theorem kept_trackExpected (x : Lane) (n : Nat) : x.Kept (x.trackExpected n) := by
  induction n generalizing x with
  | zero => exact .refl x
  | succ n ih =>
    unfold Lane.trackExpected
    split
    · exact (x.kept_expected _).trans (ih _)
    · exact .refl x

theorem kept_loseWrite (x : Lane) : x.Kept x.loseWrite := .of_same rfl rfl rfl rfl rfl id

/-- A line handed raises lines processed and, in DRAIN, the drain count up to its bound (R12, R156). -/
theorem kept_lineHanded (x : Lane) : x.Kept x.lineHanded where
  firings := le_max_left _ _
  drain := by
    unfold Lane.lineHanded
    dsimp only
    split
    · exact (min_le_right _ _).trans (le_max_right _ _)
    · exact le_max_left _ _
  episode := le_max_left _ _
  tick := le_max_left _ _
  balanced := id
  table := fun h => h.of_objects rfl

theorem kept_countVoid (x : Lane) (b : Bool) : x.Kept (x.count fun c => c.voidLine b) := .of_same rfl rfl rfl rfl rfl id

/-- A table emptied (R54). -/
theorem kept_noObjects (x : Lane) : x.Kept { x with objects := [] } :=
  ⟨le_max_left _ _, le_max_left _ _, le_max_left _ _, le_max_left _ _, id, fun _ => .of_nil rfl⟩

theorem kept_voidLine (x : Lane) (l : LaneId) : x.Kept (x.voidLine l).1 := x.kept_noObjects.trans (graded_voidLine x l).kept

/-- A data line of at most 1,024 columns leaves a sound table (R44 to R52). -/
theorem kept_dataLine (x : Lane) (l : LaneId) (n : LineNo) (mixed : Bool) {cs : List PixelClass} (hcs : cs.length ≤ 1024) :
    x.Kept (x.dataLine l n mixed cs).1 := by
  refine .trans ?_ (graded_dataLine x l n mixed cs).kept
  refine ⟨le_max_left _ _, le_max_left _ _, le_max_left _ _, le_max_left _ _, id, fun h => ?_⟩
  have htracked : ({ x with objects := (trackLine x.grade n cs x.objects).table } : Lane).TableSound := h.trackLine hcs rfl
  exact htracked.markMixed (fun o => o.mixed || mixed) rfl

/-! ### Ejection -/

theorem kept_openEntry (x : Lane) (now : Nat) (v : Fin 64) (f : Firing) (r : Option Firing) : x.Kept (x.openEntry now v f r) :=
  .of_same rfl rfl rfl rfl rfl id

theorem kept_toPending (x : Lane) (f : Firing) : x.Kept (x.toPending f) := by
  unfold Lane.toPending
  split
  · exact x.kept_setValve _ _
  · exact x.kept_countMissed _ _

theorem kept_episodeMiss (x : Lane) : x.Kept x.episodeMiss :=
  ⟨le_max_left _ _, le_max_left _ _, (min_le_right _ _).trans (le_max_right _ _), le_max_left _ _, id, fun h => h.of_objects rfl⟩

theorem kept_entryDue (x : Lane) (now : Nat) (f : Firing) : x.Kept (x.entryDue now f) := by
  unfold Lane.entryDue
  dsimp only
  split
  · exact (x.kept_countMissed _ _).trans (kept_episodeMiss _)
  · split
    · exact x.kept_openEntry _ _ _ _
    · exact x.kept_toPending f
    · split
      · exact x.kept_setValve _ _
      · exact x.kept_toPending f
    · split
      · exact x.kept_setValve _ _
      · exact x.kept_toPending f

theorem kept_foldl_entryDue (now : Nat) (fs : List Firing) (x : Lane) : x.Kept (fs.foldl (Lane.entryDue now) x) := by
  induction fs generalizing x with
  | nil => exact .refl x
  | cons f fs ih => exact (x.kept_entryDue now f).trans (ih _)

theorem kept_ejectorTick (x : Lane) (now : Nat) (t : TickTime) : x.Kept (x.ejectorTick now t) :=
  ((((x.kept_mapValves _).trans (kept_mapValves _ _)).trans (kept_countMissed _ _ _)).trans
    (kept_firings _ (List.length_filter_le _ _))).trans (kept_foldl_entryDue now _ _)

theorem kept_boostExpires (x : Lane) (now : Nat) (v : Fin 64) : x.Kept (x.boostExpires now v) := by
  unfold Lane.boostExpires
  dsimp only
  repeat' split
  all_goals first | exact .refl x | exact x.kept_setValve _ _

theorem kept_carrierTurns (x : Lane) (now : Nat) (v : Fin 64) : x.Kept (x.carrierTurns now v) := by
  unfold Lane.carrierTurns
  dsimp only
  repeat' split
  all_goals first | exact .refl x | exact x.kept_setValve _ _

theorem kept_guardTrips (x : Lane) (l : LaneId) (now : Nat) (v : Fin 64) : x.Kept (x.guardTrips l now v).1 := by
  unfold Lane.guardTrips
  repeat' split
  all_goals exact .of_same rfl rfl rfl rfl rfl id

theorem kept_recoveryEnds (x : Lane) (now : Nat) (v : Fin 64) : x.Kept (x.recoveryEnds now v) := by
  unfold Lane.recoveryEnds
  dsimp only
  repeat' split
  all_goals exact .of_same rfl rfl rfl rfl rfl id

theorem kept_testEnds (x : Lane) (now : Nat) (v : Fin 64) : x.Kept (x.testEnds now v) := by
  unfold Lane.testEnds
  dsimp only
  repeat' split
  all_goals exact .of_same rfl rfl rfl rfl rfl id

theorem kept_startTest (x : Lane) (now : Nat) (v : Fin 64) (d : Nat) : x.Kept (x.startTest now v d) := x.kept_setValve _ _

theorem countValves_le (x : Lane) (p : Valve → Bool) : x.countValves p ≤ 64 := by
  simpa [Lane.countValves] using List.countP_le_length (p := p) (l := x.valves.toList)

/-- A drop counts at most the 64 pending slots into the episode (R95). -/
theorem kept_dropSupply (x : Lane) (l : LaneId) (now : Nat) : x.Kept (x.dropSupply l now).1 := by
  have hpending : x.countValves (fun y => y.pending.isSome) ≤ Config.episodeMissedMax :=
    (x.countValves_le _).trans (by decide)
  have hended := x.kept_mapValves fun y => { x.endOpening now x.endTickNow y with pending := none }
  unfold Lane.dropSupply
  generalize x.mapValves _ = ended at hended ⊢
  exact (hended.trans (kept_countMissed ended .supply _)).trans
    ⟨le_max_left _ _, le_max_left _ _, hpending.trans (le_max_right _ _), le_max_left _ _, id, fun h => h.of_objects rfl⟩

theorem kept_returnSupply (x : Lane) (l : LaneId) : x.Kept (x.returnSupply l).1 :=
  ⟨le_max_left _ _, le_max_left _ _, Nat.zero_le _, le_max_left _ _, id, fun h => h.of_objects rfl⟩

theorem kept_supplyGood (x : Lane) (b : Bool) : x.Kept { x with supplyGood := b } := .of_same rfl rfl rfl rfl rfl id

/-! ### Commands and resets -/

theorem kept_clearCounters (x : Lane) : x.Kept { x with counters := {} } := .of_same rfl rfl rfl rfl rfl fun _ => rfl

theorem kept_afterPor (x : Lane) : x.Kept x.afterPor := .of_empty rfl rfl rfl (Nat.zero_le _) rfl rfl

theorem kept_afterWarm (x : Lane) (now : Nat) : x.Kept (x.afterWarm now) := .of_empty rfl rfl rfl (le_max_left _ _) rfl rfl

end Lane

end Sys2Proof.Machine

/-! ## Proofs: what the blocks behind the memory path keep, and which lanes they touch

`State.Kept` is the lanes' `Kept` with the bounds of the event queue and the equality of R66 in the snapshots that wait.
`State.Worked L` adds the frame of an event of the lanes in `L`: the other lanes, the staged bank, the shadow, the consumer
index and the pending slot stay. The walk below follows the model's operations in their own order. -/
namespace Sys2Proof.Machine

/-- Every snapshot that waits is balanced (R66, R173). -/
def State.SnapshotsBalanced (s : State) : Prop := ∀ l p, (s.rwu.report l).snapshot = some p → p.counters.Balanced

/-- From `s` to `t` both lanes are kept, the event queue and the drop count stay within their bounds, and waiting snapshots stay
balanced. -/
structure State.Kept (s t : State) : Prop where
  lanes : ∀ l, (s.lane l).Kept (t.lane l)
  queue : t.rwu.queue.length ≤ max s.rwu.queue.length Config.eventQueuePlaces
  drops : t.rwu.dropCount ≤ max s.rwu.dropCount Config.dropCountMax
  waiting : (∀ l, (s.lane l).counters.Balanced) → s.SnapshotsBalanced → t.SnapshotsBalanced

/-- What the events of the lanes in `L` leave: the other lanes, the staged bank, the mailbox shadow, the consumer index and the
pending slot. -/
structure State.Worked (L : Set LaneId) (s t : State) : Prop extends s.Kept t where
  other : ∀ m, m ∉ L → t.lane m = s.lane m
  staged : t.rtu.staged = s.rtu.staged
  shadow : t.cmu.shadow = s.cmu.shadow
  consumer : t.cmu.consumerIndex = s.cmu.consumerIndex
  slot : t.cmu.slot = s.cmu.slot

theorem State.Kept.refl (s : State) : s.Kept s :=
  ⟨fun _ => .refl _, le_max_left _ _, le_max_left _ _, fun _ h => h⟩

theorem State.Kept.trans {s t u : State} (h : s.Kept t) (k : t.Kept u) : s.Kept u where
  lanes l := (h.lanes l).trans (k.lanes l)
  queue := k.queue.trans (max_le h.queue (le_max_right _ _))
  drops := k.drops.trans (max_le h.drops (le_max_right _ _))
  waiting hs hw := k.waiting (fun l => (h.lanes l).balanced (hs l)) (h.waiting hs hw)

/-- A change outside the lanes and the RWU's queue and snapshots. -/
theorem State.Kept.of_same {s t : State} (hlanes : ∀ l, t.lane l = s.lane l) (hqueue : t.rwu.queue = s.rwu.queue)
    (hdrops : t.rwu.dropCount = s.rwu.dropCount) (hreport : ∀ l, (t.rwu.report l).snapshot = (s.rwu.report l).snapshot) :
    s.Kept t where
  lanes l := hlanes l ▸ .refl _
  queue := hqueue ▸ le_max_left _ _
  drops := hdrops ▸ le_max_left _ _
  waiting _ hw l p hp := hw l p (hreport l ▸ hp)

namespace State.Worked

variable {L : Set LaneId} {s t u : State}

theorem refl (s : State) : s.Worked L s := ⟨.refl s, fun _ _ => rfl, rfl, rfl, rfl, rfl⟩

theorem trans (h : s.Worked L t) (k : t.Worked L u) : s.Worked L u where
  toKept := h.toKept.trans k.toKept
  other m hm := (k.other m hm).trans (h.other m hm)
  staged := k.staged.trans h.staged
  shadow := k.shadow.trans h.shadow
  consumer := k.consumer.trans h.consumer
  slot := k.slot.trans h.slot

theorem mono {M : Set LaneId} (h : s.Worked L t) (hLM : L ⊆ M) : s.Worked M t :=
  { h with other := fun m hm => h.other m fun hl => hm (hLM hl) }

end State.Worked

open State.Worked

section
variable {L : Set LaneId}

/-! ### Lanes, records, snapshots -/

theorem worked_setLane {s : State} {l : LaneId} {x : Lane} (hl : l ∈ L) (hx : (s.lane l).Kept x) :
    s.Worked L (s.setLane l x) where
  lanes m := by
    by_cases h : m = l
    · rw [h, lane_setLane_self]
      exact hx
    · rw [lane_setLane_ne _ _ h]
      exact .refl _
  queue := by rw [setLane_rwu]; exact le_max_left _ _
  drops := by rw [setLane_rwu]; exact le_max_left _ _
  waiting _ hw m p hp := hw m p (by rwa [setLane_rwu] at hp)
  other m hm := lane_setLane_ne _ _ fun h => hm (h ▸ hl)
  staged := by rw [setLane_rtu]
  shadow := by rw [setLane_cmu]
  consumer := by rw [setLane_cmu]
  slot := by rw [setLane_cmu]

theorem worked_modLane {s : State} {l : LaneId} {f : Lane → Lane} (hl : l ∈ L) (hf : (s.lane l).Kept (f (s.lane l))) :
    s.Worked L (s.modLane l f) := worked_setLane hl hf

theorem enqueue_bounds (w : Rwu) (r : Record) :
    (w.enqueue r).queue.length ≤ max w.queue.length Config.eventQueuePlaces ∧
      (w.enqueue r).dropCount ≤ max w.dropCount Config.dropCountMax ∧ ∀ l, (w.enqueue r).report l = w.report l := by
  rcases enqueue_cases w r with ⟨hroom, h⟩ | ⟨-, h⟩
  · refine h ▸ ⟨?_, Nat.zero_le _, fun l => by cases l <;> rfl⟩
    exact (by simpa using hroom : (w.queue ++ [_]).length ≤ 24).trans (le_max_right _ _)
  · exact h ▸ ⟨le_max_left _ _, (min_le_right _ _).trans (le_max_right _ _), fun l => by cases l <;> rfl⟩

theorem worked_record (s : State) (r : Record) : s.Worked L (s.record r) :=
  have ⟨hqueue, hdrops, hreport⟩ := enqueue_bounds s.rwu r
  { lanes := fun l => by rw [record_lane]; exact .refl _
    queue := hqueue
    drops := hdrops
    waiting := fun _ hw l p hp => hw l p (hreport l ▸ hp)
    other := fun l _ => record_lane s r l
    staged := rfl
    shadow := rfl
    consumer := rfl
    slot := rfl }

theorem worked_records (s : State) (rs : List Record) : s.Worked L (s.records rs) := by
  induction rs generalizing s with
  | nil => exact refl s
  | cons r rs ih =>
    rw [records_cons]
    exact (worked_record s r).trans (ih _)

theorem worked_apply {s : State} {l : LaneId} {w : Lane × List Record} (hl : l ∈ L) (hw : (s.lane l).Kept w.1) :
    s.Worked L (s.apply l w) := (worked_setLane hl hw).trans (worked_records _ _)

/-- A snapshot copies balanced counters (R173). -/
theorem worked_takeSnapshot (s : State) (l : LaneId) (c : SnapshotCause) : s.Worked L (s.takeSnapshot l c) where
  lanes m := by cases m <;> exact .refl _
  queue := by simp [State.takeSnapshot]
  drops := by simp [State.takeSnapshot]
  waiting hs hw m p hp := by
    by_cases h : m = l
    · obtain ⟨q, hq, hcounters, -⟩ := snapshot_taken s l c
      rw [h, hq, Option.some.injEq] at hp
      rw [← hp, hcounters]
      exact hs l
    · refine hw m p ?_
      rwa [State.takeSnapshot, report_setReport_ne _ _ h] at hp
  other m _ := by cases m <;> rfl
  staged := rfl
  shadow := rfl
  consumer := rfl
  slot := rfl

/-- A change of the RWU outside its queue and its snapshots. -/
theorem worked_setRwu {s : State} {w : Rwu} (hqueue : w.queue = s.rwu.queue) (hdrops : w.dropCount = s.rwu.dropCount)
    (hreport : ∀ l, (w.report l).snapshot = (s.rwu.report l).snapshot) : s.Worked L { s with rwu := w } where
  toKept := .of_same (fun l => by cases l <;> rfl) hqueue hdrops hreport
  other m _ := by cases m <;> rfl
  staged := rfl
  shadow := rfl
  consumer := rfl
  slot := rfl

theorem worked_commonWaits (s : State) : s.Worked L s.commonWaits :=
  worked_setRwu rfl rfl fun l => by cases l <;> rfl

/-- A change of the commit machine alone. -/
theorem worked_setCommit (s : State) (c : Commit) : s.Worked L { s with rtu := { s.rtu with commit := c } } where
  toKept := .of_same (fun l => by cases l <;> rfl) rfl rfl fun _ => rfl
  other m _ := by cases m <;> rfl
  staged := rfl
  shadow := rfl
  consumer := rfl
  slot := rfl

/-- A change of the CMU outside the shadow, the consumer index and the pending slot. -/
theorem worked_setCmu {s : State} {c : Cmu} (hshadow : c.shadow = s.cmu.shadow)
    (hconsumer : c.consumerIndex = s.cmu.consumerIndex) (hslot : c.slot = s.cmu.slot) : s.Worked L { s with cmu := c } where
  toKept := .of_same (fun l => by cases l <;> rfl) rfl rfl fun _ => rfl
  other m _ := by cases m <;> rfl
  staged := rfl
  shadow := hshadow
  consumer := hconsumer
  slot := hslot

/-! ### Recipe -/

theorem worked_answer (s : State) (r : CommandRecord) (c : CommandStatus) (d : Word) : s.Worked L (s.answer r c d) :=
  worked_record _ _

theorem worked_completeCommand (s : State) (c : CommandStatus) (d : Word) : s.Worked L (s.completeCommand c d) := by
  unfold State.completeCommand
  split
  · exact .trans (t := { s with cmu := { s.cmu with executing := none } }) (worked_setCmu rfl rfl rfl) (worked_answer _ _ _ _)
  · exact refl s

theorem worked_endCommit (s : State) (c : CommandStatus) (d : Word) : s.Worked L (s.endCommit c d) :=
  (worked_setCommit s _).trans (worked_completeCommand _ _ _)

theorem worked_swapLane (s : State) {l : LaneId} (hl : l ∈ L) : s.Worked L (s.swapLane l) := by
  have htaken : s.Worked L (s.modLane l fun x => x.takeTable s.rtu.staged l) :=
    worked_modLane hl (Lane.kept_takeTable _ _ _)
  unfold State.swapLane
  split
  · exact refl s
  · exact refl s
  · split
    · dsimp only
      split
      · exact htaken.trans (worked_endCommit _ _ _)
      · exact htaken.trans (worked_setCommit _ _)
    · exact refl s

theorem worked_swapAtOnce (s : State) {l : LaneId} (hl : l ∈ L) : s.Worked L (s.swapAtOnce l) := by
  unfold State.swapAtOnce
  split
  · exact worked_swapLane s hl
  · exact refl s

theorem worked_endScan (s : State) : s.Worked Set.univ s.endScan := by
  unfold State.endScan
  split
  · exact refl s
  · exact refl s
  · split
    · dsimp only
      split
      · exact worked_endCommit _ _ _
      · split
        · exact worked_endCommit _ _ _
        · exact (worked_setCommit s _).trans ((worked_swapAtOnce _ (Set.mem_univ _)).trans (worked_swapAtOnce _ (Set.mem_univ _)))
    · exact refl s

/-! ### Modes -/

theorem worked_takeCapture (s : State) (l : LaneId) : s.Worked L (s.takeCapture l) where
  toKept := .of_same (fun l => by cases l <;> rfl) rfl rfl fun l => by cases l <;> rfl
  other m _ := by cases m <;> rfl
  staged := rfl
  shadow := rfl
  consumer := rfl
  slot := rfl

theorem worked_captureIfWaiting (s : State) (l : LaneId) : s.Worked L (s.captureIfWaiting l) := by
  unfold State.captureIfWaiting
  split
  · exact worked_takeCapture s l
  · exact refl s

theorem worked_beginCapture (s : State) (l : LaneId) : s.Worked L (s.beginCapture l) := by
  unfold State.beginCapture
  dsimp only
  split
  · exact worked_setCmu rfl rfl rfl
  · exact worked_takeCapture s l

theorem worked_setMode (s : State) {l : LaneId} (hl : l ∈ L) (m : LaneMode) (c : ModeCause) (q : BitVec 16) :
    s.Worked L (s.setMode l m c q) := (worked_setLane hl (Lane.kept_mode _ m)).trans (worked_record _ _)

theorem worked_startLane (s : State) {l : LaneId} (hl : l ∈ L) (a b : Nat) (q : BitVec 16) :
    s.Worked L (s.startLane l a b q) :=
  ((worked_setMode s hl _ _ _).trans (worked_modLane hl (Lane.kept_started _ _ _ _))).trans (worked_takeSnapshot _ _ _)

theorem worked_holdLane (s : State) {l : LaneId} (hl : l ∈ L) (q : BitVec 16) : s.Worked L (s.holdLane l q) :=
  ((worked_setMode s hl _ _ _).trans (worked_modLane hl (Lane.kept_drainZero _))).trans (worked_takeSnapshot _ _ _)

theorem worked_resumeLane (s : State) {l : LaneId} (hl : l ∈ L) (q : BitVec 16) : s.Worked L (s.resumeLane l q) :=
  (worked_setMode s hl _ _ _).trans (worked_takeSnapshot _ _ _)

theorem worked_stopLane (s : State) {l : LaneId} (hl : l ∈ L) (q : BitVec 16) : s.Worked L (s.stopLane l q) :=
  ((worked_setMode s hl _ _ _).trans (worked_apply hl (Lane.kept_stopBlocks _ _ _ _))).trans (worked_takeSnapshot _ _ _)

theorem worked_faultLane (s : State) {l : LaneId} (hl : l ∈ L) : s.Worked L (s.faultLane l) :=
  (((worked_captureIfWaiting s l).trans (worked_setMode _ hl _ _ _)).trans
    (worked_apply hl (Lane.kept_stopBlocks _ _ _ _))).trans (worked_takeSnapshot _ _ _)

theorem worked_enterHold (s : State) {l : LaneId} (hl : l ∈ L) : s.Worked L (s.enterHold l) :=
  (((worked_captureIfWaiting s l).trans (worked_setMode _ hl _ _ _)).trans
    (worked_modLane hl (Lane.kept_discardAssembly _))).trans (worked_takeSnapshot _ _ _)

theorem worked_evaluateDrain (s : State) {l : LaneId} (hl : l ∈ L) (q : Bool) (n : Nat) :
    s.Worked L (s.evaluateDrain l q n) := by
  refine worked_modLane hl ?_
  split
  · exact Lane.kept_drainDue _ _
  · exact .refl _

theorem worked_settleCapture (s : State) : s.Worked L s.settleCapture := by
  unfold State.settleCapture
  split
  · split
    · exact worked_takeCapture _ _
    · exact refl s
  · exact refl s

theorem worked_settleDrain (s : State) {l : LaneId} (hl : l ∈ L) : s.Worked L (s.settleDrain l) := by
  unfold State.settleDrain
  split
  · exact worked_enterHold s hl
  · exact refl s

theorem worked_settleSwap (s : State) {l : LaneId} (hl : l ∈ L) : s.Worked L (s.settleSwap l) := by
  unfold State.settleSwap
  split
  · exact refl s
  · exact worked_swapLane s hl

/-! ### Mailbox -/

theorem worked_withLane {s : State} {r : CommandRecord} {f : LaneId → State} (h : ∀ l, s.Worked L (f l)) :
    s.Worked L (s.withLane r f) := by
  unfold State.withLane
  split
  · exact h _
  · exact worked_answer _ _ _ _

theorem worked_commandStart (s : State) (r : CommandRecord) : s.Worked Set.univ (s.commandStart r) := by
  refine worked_withLane fun l => ?_
  repeat' split
  all_goals
    first | exact worked_answer _ _ _ _ | exact (worked_startLane s (Set.mem_univ _) _ _ _).trans (worked_answer _ _ _ _)

theorem worked_commandHold (s : State) (r : CommandRecord) : s.Worked Set.univ (s.commandHold r) := by
  refine worked_withLane fun l => ?_
  split
  · exact (worked_holdLane s (Set.mem_univ _) _).trans (worked_answer _ _ _ _)
  all_goals exact worked_answer _ _ _ _

theorem worked_commandResume (s : State) (r : CommandRecord) : s.Worked Set.univ (s.commandResume r) := by
  refine worked_withLane fun l => ?_
  split
  · exact (worked_resumeLane s (Set.mem_univ _) _).trans (worked_answer _ _ _ _)
  · exact (worked_resumeLane s (Set.mem_univ _) _).trans (worked_answer _ _ _ _)
  all_goals exact worked_answer _ _ _ _

theorem worked_commandStop (s : State) (r : CommandRecord) : s.Worked Set.univ (s.commandStop r) := by
  refine worked_withLane fun l => ?_
  split
  · exact worked_answer _ _ _ _
  · exact (worked_stopLane s (Set.mem_univ _) _).trans (worked_answer _ _ _ _)

theorem worked_execute (s : State) (r : CommandRecord) : s.Worked L (s.execute r) := worked_setCmu rfl rfl rfl

theorem worked_commandCommit (s : State) (r : CommandRecord) : s.Worked Set.univ (s.commandCommit r) := by
  unfold State.commandCommit
  split
  · exact worked_answer _ _ _ _
  · exact (worked_execute s r).trans (worked_setCommit _ _)

theorem worked_commandTest (s : State) (r : CommandRecord) : s.Worked Set.univ (s.commandTest r) := by
  refine worked_withLane fun l => ?_
  dsimp only
  repeat' split
  all_goals
    first
      | exact worked_answer _ _ _ _
      | exact (worked_modLane (Set.mem_univ _) (Lane.kept_startTest _ _ _ _)).trans (worked_answer _ _ _ _)

theorem worked_owe (s : State) (l : LaneId) : s.Worked L (s.owe l) :=
  worked_setRwu (setReport_queue _ _ _) (setReport_dropCount _ _ _) fun m => by cases l <;> cases m <;> rfl

theorem worked_clearCounters (s : State) : s.Worked Set.univ s.clearCounters :=
  (worked_modLane (Set.mem_univ _) (Lane.kept_clearCounters _)).trans (worked_modLane (Set.mem_univ _) (Lane.kept_clearCounters _))

theorem worked_commandStats (s : State) (r : CommandRecord) : s.Worked Set.univ (s.commandStats r) := by
  unfold State.commandStats
  split
  · exact worked_answer _ _ _ _
  · have howed : s.Worked Set.univ (((((s.execute r).commonWaits.takeSnapshot .lane0 .command).takeSnapshot .lane1
        .command).owe .lane0).owe .lane1) :=
      (((((worked_execute s r).trans (worked_commonWaits _)).trans (worked_takeSnapshot _ _ _)).trans
        (worked_takeSnapshot _ _ _)).trans (worked_owe _ _)).trans (worked_owe _ _)
    dsimp only
    split
    · exact howed.trans (worked_clearCounters _)
    · exact howed

theorem worked_commandCapture (s : State) (r : CommandRecord) : s.Worked Set.univ (s.commandCapture r) :=
  worked_withLane fun l => (worked_execute s r).trans (worked_beginCapture _ l)

theorem worked_executeCommand (s : State) (r : CommandRecord) : s.Worked Set.univ (s.executeCommand r) := by
  unfold State.executeCommand
  repeat' split
  · exact worked_commandStart _ _
  · exact worked_commandHold _ _
  · exact worked_commandResume _ _
  · exact worked_commandStop _ _
  · exact worked_commandCommit _ _
  · exact worked_commandTest _ _
  · exact worked_commandStats _ _
  · exact worked_commandCapture _ _
  · exact worked_answer _ _ _ _

/-- Filling or emptying the pending slot keeps lanes, queue and snapshots. -/
theorem kept_setCmu (s : State) (c : Cmu) : s.Kept { s with cmu := c } :=
  .of_same (fun l => by cases l <;> rfl) rfl rfl fun _ => rfl

theorem kept_goWordArrives (s : State) (g : Word) : s.Kept (s.goWordArrives g) := by
  unfold State.goWordArrives
  dsimp only
  split
  · exact (worked_executeCommand _ _).toKept
  · split
    · exact kept_setCmu s _
    · exact (kept_setCmu s _).trans (worked_answer (L := ∅) _ _ _ _).toKept

theorem kept_finishCommands (s : State) : s.Kept s.finishCommands := by
  unfold State.finishCommands
  split
  · exact ((worked_settleDrain s (Set.mem_univ _)).trans (worked_settleDrain _ (Set.mem_univ _))).toKept.trans
      ((kept_setCmu _ _).trans (worked_executeCommand _ _).toKept)
  · exact .refl s

theorem kept_settle (s : State) : s.Kept s.settle :=
  (((((worked_settleCapture s).trans (worked_settleDrain _ (Set.mem_univ _))).trans (worked_settleDrain _ (Set.mem_univ _))).trans
    (worked_settleSwap _ (Set.mem_univ _))).trans (worked_settleSwap (L := Set.univ) _ (Set.mem_univ _))).toKept.trans (kept_finishCommands _)

theorem kept_pass (s : State) (n : Nat) : s.Kept (s.pass n) :=
  .of_same (fun l => by cases l <;> rfl) rfl rfl fun _ => rfl

theorem kept_begin (s : State) (n : Nat) : s.Kept (s.begin n) := (kept_settle s).trans (kept_pass _ n)

/-! ### Intake -/

theorem worked_damageLine (s : State) {l : LaneId} (hl : l ∈ L) (a : Assembly) (r : LineFaultReason) :
    s.Worked L (s.damageLine l a r) := (worked_modLane hl (Lane.kept_damaged _)).trans (worked_record _ _)

theorem worked_handVoid (s : State) {l : LaneId} (hl : l ∈ L) (k : Bool) : s.Worked L (s.handVoid l k) :=
  (worked_swapLane s hl).trans (worked_apply hl (((Lane.kept_lineHanded _).trans (Lane.kept_countVoid _ k)).trans
    (Lane.kept_voidLine _ l)))

theorem worked_handData (s : State) {l : LaneId} (hl : l ∈ L) (n : LineNo) (m : Bool) {c : List PixelClass}
    (hc : c.length ≤ 1024) : s.Worked L (s.handData l n m c) :=
  worked_apply hl ((Lane.kept_lineHanded _).trans (Lane.kept_dataLine _ l n m hc))

theorem worked_handSkipped (s : State) {l : LaneId} (hl : l ∈ L) (n : Nat) : s.Worked L (s.handSkipped l n) := by
  induction n generalizing s with
  | zero => exact refl s
  | succ n ih => exact (worked_handVoid s hl true).trans (ih _)

theorem worked_setExpected (s : State) {l : LaneId} (hl : l ∈ L) (e : LineNo) : s.Worked L (s.setExpected l e) :=
  worked_modLane hl (Lane.kept_expected _ e)

theorem mergeViews_length (a : Assembly) (i : Int) : (mergeViews a i).length = 1024 := by simp [mergeViews]

theorem worked_finishLine (s : State) {l : LaneId} (hl : l ∈ L) (a : Assembly) (d : Word) :
    s.Worked L (s.finishLine l a d) := by
  unfold State.finishLine
  dsimp only
  split
  · exact (((worked_damageLine s hl _ _).trans (worked_handSkipped _ hl _)).trans (worked_handVoid _ hl _)).trans
      (worked_setExpected _ hl _)
  · exact (((worked_modLane hl (Lane.kept_discardAssembly _)).trans (worked_handSkipped _ hl _)).trans
      (worked_handData _ hl _ _ (mergeViews_length _ _).le)).trans (worked_setExpected _ hl _)

theorem worked_stray (s : State) {l : LaneId} (hl : l ∈ L) : s.Worked L (s.modLane l Lane.stray) :=
  worked_modLane hl (Lane.kept_stray _)

theorem worked_judgedHeader {s : State} {l : LaneId} (hl : l ∈ L) {p : BitVec 4} {h : BitVec 16} {f : LineNo → State}
    (k : ∀ n, s.Worked L (f n)) : s.Worked L (s.judgedHeader l p h f) := by
  unfold State.judgedHeader
  split
  · exact (worked_modLane hl (.of_same rfl rfl rfl rfl rfl id)).trans (worked_record _ _)
  · exact (worked_modLane hl (.of_same rfl rfl rfl rfl rfl id)).trans (worked_record _ _)
  · exact k _

theorem worked_sortingHeader (s : State) {l : LaneId} (hl : l ∈ L) (p : BitVec 4) (h : BitVec 16) :
    s.Worked L (s.sortingHeader l p h) := by
  have hjudged (t : State) :
      t.Worked L (t.judgedHeader l p h fun n => (t.swapLane l).modLane l fun x => x.openLine p h n) :=
    worked_judgedHeader hl fun n => (worked_swapLane t hl).trans (worked_modLane hl (Lane.kept_openLine _ p h n))
  unfold State.sortingHeader
  dsimp only
  split
  · exact (worked_damageLine s hl _ _).trans (hjudged _)
  · exact hjudged s

theorem worked_endWord (s : State) {l : LaneId} (hl : l ∈ L) (p : BitVec 4) (d : Word) : s.Worked L (s.endWord l p d) := by
  unfold State.endWord
  split
  · split
    · exact worked_finishLine s hl _ _
    · exact worked_stray s hl
  · exact worked_stray s hl

theorem worked_judgeSorting (s : State) {l : LaneId} (hl : l ∈ L) (e : FifoEntry) : s.Worked L (s.judgeSorting l e) := by
  unfold State.judgeSorting
  dsimp only
  split
  · exact worked_sortingHeader s hl _ _
  · exact worked_stray s hl
  · exact worked_modLane hl (Lane.kept_frontPixel _ _ _ _)
  · exact worked_modLane hl (Lane.kept_rearPixel _ _ _ _)
  · exact worked_stray s hl
  · exact worked_endWord s hl _ _
  · exact worked_stray s hl
  · exact refl s

theorem worked_judgeHolding (s : State) {l : LaneId} (hl : l ∈ L) (e : FifoEntry) : s.Worked L (s.judgeHolding l e) := by
  unfold State.judgeHolding
  split
  · exact worked_judgedHeader hl fun _ => worked_setExpected s hl _
  · exact worked_stray s hl
  all_goals exact refl s

theorem worked_judgeEntry (s : State) (e : FifoEntry) : s.Worked {ringLane e.offset} (s.judgeEntry e) := by
  unfold State.judgeEntry
  dsimp only
  split
  · exact refl s
  · exact worked_judgeSorting s (Set.mem_singleton _) e
  · exact worked_judgeSorting s (Set.mem_singleton _) e
  · exact worked_judgeHolding s (Set.mem_singleton _) e
  · exact refl s

theorem worked_expire (s : State) {l : LaneId} (hl : l ∈ L) (n : Nat) : s.Worked L (s.expire l n) := by
  induction n generalizing s with
  | zero => exact refl s
  | succ n ih =>
    have htail (t : State) (e : LineNo) : t.Worked L (((t.handVoid l false).setExpected l e).expire l n) :=
      ((worked_handVoid t hl false).trans (worked_setExpected _ hl e)).trans (ih _)
    simp only [State.expire]
    split
    · split
      · split
        · exact (worked_damageLine s hl _ _).trans (htail _ _)
        · exact htail s _
      · exact htail s _
    · exact refl s

theorem worked_intakeLineStart (s : State) {l : LaneId} (hl : l ∈ L) : s.Worked L (s.intakeLineStart l) := by
  unfold State.intakeLineStart
  dsimp only
  split
  · exact refl s
  · exact worked_expire s hl _
  · exact worked_expire s hl _
  · exact worked_modLane hl (Lane.kept_trackExpected _ _)
  · exact refl s

/-- The end of an intake event but for the pending command: interval snapshot, line boundary, drain condition. -/
def State.closeIntake (s : State) (l : LaneId) (before : Lane) : State :=
  let count := before.counters.linesProcessed
  let handed := linesHanded count (s.lane l).counters.linesProcessed
  ((s.intervalSnapshot l count handed).lineBoundary l handed).evaluateDrain l before.quiet handed

theorem endIntake_eq (s : State) (l : LaneId) (before : Lane) :
    s.endIntake l before = (s.closeIntake l before).finishCommands := rfl

theorem worked_intervalSnapshot (s : State) (l : LaneId) (b : Word) (n : Nat) : s.Worked L (s.intervalSnapshot l b n) := by
  unfold State.intervalSnapshot
  dsimp only
  split
  · exact worked_takeSnapshot _ _ _
  · exact refl s

theorem worked_lineBoundary (s : State) (l : LaneId) (n : Nat) : s.Worked L (s.lineBoundary l n) := by
  unfold State.lineBoundary
  split
  · exact worked_setCmu rfl rfl rfl
  · exact refl s

theorem worked_closeIntake (s : State) {l : LaneId} (hl : l ∈ L) (x : Lane) : s.Worked L (s.closeIntake l x) :=
  ((worked_intervalSnapshot s l _ _).trans (worked_lineBoundary _ l _)).trans (worked_evaluateDrain _ hl _ _)

/-! ### Clock -/

theorem worked_modClock {s : State} {l : LaneId} (hl : l ∈ L) {f : Clock → Clock}
    (hf : (f (s.lane l).clock).k = (s.lane l).clock.k) : s.Worked L (s.modClock l f) :=
  worked_modLane hl (Lane.kept_clock _ hf)

theorem worked_takeTick (s : State) {l : LaneId} (hl : l ∈ L) {k : Nat} (hk : k ≤ 15) : s.Worked L (s.takeTick l k) :=
  (worked_modLane hl ((Lane.kept_clock_tick _ hk).trans (Lane.kept_ejectorTick _ _ _))).trans
    (worked_evaluateDrain _ hl _ _)

theorem worked_ticksFrom (s : State) {l : LaneId} (hl : l ∈ L) {k n : Nat} (hk : k + n ≤ 16) :
    s.Worked L (s.ticksFrom l k n) := by
  induction n generalizing s k with
  | zero => exact refl s
  | succ n ih =>
    exact (((worked_takeTick s hl (by omega)).trans (worked_settleDrain _ hl)).trans (worked_settleSwap _ hl)).trans
      (ih _ (by omega))

theorem worked_remainingTicks (s : State) {l : LaneId} (hl : l ∈ L) : s.Worked L (s.remainingTicks l) := by
  unfold State.remainingTicks
  by_cases h : (s.lane l).clock.k ≤ 15
  · exact worked_ticksFrom s hl (by omega)
  · rw [Nat.sub_eq_zero_of_le (by omega)]
    exact refl s

theorem tickDue_lt {c : Clock} {now : Nat} (h : c.tickDue now = true) : c.k < 15 := by
  simp only [Clock.tickDue, Bool.and_eq_true, decide_eq_true_eq] at h
  exact h.1.2

theorem worked_reachedTicks (s : State) {l : LaneId} (hl : l ∈ L) (n : Nat) : s.Worked L (s.reachedTicks l n) := by
  induction n generalizing s with
  | zero => exact refl s
  | succ n ih =>
    simp only [State.reachedTicks]
    split
    · rename_i hdue
      exact (worked_takeTick s hl (tickDue_lt hdue)).trans (ih _)
    · exact refl s

theorem worked_beginLine (s : State) {l : LaneId} (hl : l ∈ L) (n : Nat) : s.Worked L (s.beginLine l n) :=
  (worked_modLane hl (Lane.kept_clock_tick _ (Nat.zero_le _))).trans (worked_takeTick _ hl (Nat.zero_le _))

theorem worked_recordClock (s : State) (l : LaneId) (e : ClockState) (k : Option LockKind) (n : Nat) :
    s.Worked L (s.recordClock l e k n) := worked_record _ _

theorem worked_reAnchor (s : State) {l : LaneId} (hl : l ∈ L) : s.Worked L (s.reAnchor l) :=
  (worked_modClock hl rfl).trans (worked_recordClock _ _ _ _ _)

theorem worked_loseClock (s : State) {l : LaneId} (hl : l ∈ L) : s.Worked L (s.loseClock l) :=
  ((worked_modClock hl rfl).trans (worked_recordClock _ _ _ _ _)).trans (worked_faultLane _ hl)

end

/-- An event of lane `l`: work on that lane alone, then perhaps the command that this has set free. -/
def State.LaneEvent (l : LaneId) (s t : State) : Prop := ∃ u, s.Worked {l} u ∧ (t = u ∨ t = u.finishCommands)

theorem State.Worked.laneEvent {l : LaneId} {s t : State} (h : s.Worked {l} t) : s.LaneEvent l t := ⟨t, h, .inl rfl⟩

theorem State.Worked.thenEvent {l : LaneId} {s t u : State} (h : s.Worked {l} t) (k : t.LaneEvent l u) : s.LaneEvent l u := by
  obtain ⟨v, hv, hu⟩ := k
  exact ⟨v, h.trans hv, hu⟩

theorem State.LaneEvent.kept {l : LaneId} {s t : State} (h : s.LaneEvent l t) : s.Kept t := by
  obtain ⟨u, hu, rfl | rfl⟩ := h
  · exact hu.toKept
  · exact hu.toKept.trans (kept_finishCommands u)

/-- With no command pending an event of a lane is work on that lane alone. -/
theorem State.LaneEvent.worked {l : LaneId} {s t : State} (h : s.LaneEvent l t) (hslot : s.cmu.slot = none) :
    s.Worked {l} t := by
  obtain ⟨u, hu, rfl | rfl⟩ := h
  · exact hu
  · rwa [finishCommands_same fun _ => hu.slot.trans hslot]

theorem laneEvent_endIntake (s : State) (l : LaneId) (x : Lane) : s.LaneEvent l (s.endIntake l x) :=
  ⟨s.closeIntake l x, worked_closeIntake s (Set.mem_singleton _) x, .inr rfl⟩

theorem laneEvent_reachIntake (s : State) (l : LaneId) : s.LaneEvent l (s.reachIntake l) :=
  (worked_intakeLineStart s (Set.mem_singleton _)).thenEvent (laneEvent_endIntake _ _ _)

theorem laneEvent_firstEdge (s : State) (l : LaneId) : s.LaneEvent l (s.firstEdge l) :=
  (((worked_beginLine s (Set.mem_singleton _) _).trans (worked_modClock (Set.mem_singleton _) rfl)).trans (worked_recordClock _ _ _ _ _)).thenEvent
    (laneEvent_reachIntake _ _)

theorem laneEvent_lockedEdge (s : State) (l : LaneId) : s.LaneEvent l (s.lockedEdge l) :=
  ((((worked_remainingTicks s (Set.mem_singleton _)).trans (worked_modLane (Set.mem_singleton _) (Lane.kept_measureEdge _ _))).trans
    (worked_beginLine _ (Set.mem_singleton _) _)).trans (worked_modClock (Set.mem_singleton _) rfl)).thenEvent (laneEvent_reachIntake _ _)

theorem laneEvent_relockNewLine (s : State) (l : LaneId) : s.LaneEvent l (s.relockNewLine l) :=
  ((((worked_remainingTicks s (Set.mem_singleton _)).trans (worked_beginLine _ (Set.mem_singleton _) _)).trans (worked_modClock (Set.mem_singleton _) rfl)).trans
    (worked_recordClock _ _ _ _ _)).thenEvent (laneEvent_reachIntake _ _)

theorem laneEvent_edge (s : State) (l : LaneId) : s.LaneEvent l (s.edge l) := by
  have hglitch : s.LaneEvent l (s.modLane l Lane.glitch) := (worked_modLane (Set.mem_singleton _) (Lane.kept_glitch _)).laneEvent
  unfold State.edge
  dsimp only
  split
  · exact (State.Worked.refl s).laneEvent
  · exact laneEvent_firstEdge s l
  · split
    · exact hglitch
    · exact laneEvent_lockedEdge s l
  · split
    · exact hglitch
    · split
      · exact laneEvent_relockNewLine s l
      · exact (worked_reAnchor s (Set.mem_singleton _)).laneEvent
  · exact (State.Worked.refl s).laneEvent

theorem laneEvent_syntheticStart (s : State) (l : LaneId) (n : Nat) : s.LaneEvent l (s.syntheticStart l n) :=
  ((((worked_remainingTicks s (Set.mem_singleton _)).trans (worked_beginLine _ (Set.mem_singleton _) _)).trans (worked_reachedTicks _ (Set.mem_singleton _) _)).trans
    (worked_modClock (Set.mem_singleton _) rfl)).thenEvent (laneEvent_reachIntake _ _)

theorem laneEvent_deadlineFalls (s : State) (l : LaneId) : s.LaneEvent l (s.deadlineFalls l) := by
  unfold State.deadlineFalls
  dsimp only
  split
  · exact ((worked_modLane (Set.mem_singleton _) (Lane.kept_enterCoasting _)).trans (worked_record _ _)).thenEvent
      (laneEvent_syntheticStart _ _ _)
  · exact (State.Worked.refl s).laneEvent

theorem laneEvent_syntheticFalls (s : State) (l : LaneId) : s.LaneEvent l (s.syntheticFalls l) := by
  unfold State.syntheticFalls
  dsimp only
  split
  · split
    · split
      · exact (worked_loseClock s (Set.mem_singleton _)).laneEvent
      · exact laneEvent_syntheticStart s l _
    · exact (State.Worked.refl s).laneEvent
  · exact (State.Worked.refl s).laneEvent

theorem worked_tickFalls (s : State) (l : LaneId) : s.Worked {l} (s.tickFalls l) := by
  unfold State.tickFalls
  dsimp only
  split
  · rename_i hdue
    exact worked_takeTick s (Set.mem_singleton _) (tickDue_lt hdue)
  · exact refl s

/-! ### Valves, swaps, writer -/

theorem worked_ejectorEvent {s : State} {l : LaneId} {w : Lane × List Record} (hw : (s.lane l).Kept w.1) :
    s.Worked {l} (s.ejectorEvent l w) := (worked_apply (Set.mem_singleton _) hw).trans (worked_evaluateDrain _ (Set.mem_singleton _) _ _)

theorem worked_supplyFalls (s : State) (l : LaneId) : s.Worked {l} (s.supplyFalls l) := by
  unfold State.supplyFalls
  split
  · exact refl s
  · split
    · exact worked_modLane (Set.mem_singleton _) (Lane.kept_supplyGood _ _)
    · exact worked_ejectorEvent (Lane.kept_dropSupply _ _ _)

theorem worked_supplyRises (s : State) (l : LaneId) : s.Worked {l} (s.supplyRises l) := by
  unfold State.supplyRises
  split
  · exact refl s
  · split
    · exact worked_modLane (Set.mem_singleton _) (Lane.kept_supplyGood _ _)
    · exact worked_ejectorEvent (Lane.kept_returnSupply _ _)

/-- The head of the FIFO leaves and is judged: the FIFO apart, an event of the entry's lane. -/
theorem kept_leaveFifo (s : State) : s.Kept s.leaveFifo := by
  unfold State.leaveFifo
  split
  · rename_i rest _
    refine .trans (t := { s with ptu := s.ptu.leave rest }) (.of_same (fun l => by cases l <;> rfl) rfl rfl fun _ => rfl) ?_
    exact ((worked_judgeEntry _ _).thenEvent (laneEvent_endIntake _ _ _)).kept
  · exact .refl s

theorem kept_stallEnds (s : State) : s.Kept s.stallEnds := by
  unfold State.stallEnds
  split
  · split
    · refine .trans (t := { s with ptu := { s.ptu with stall := none } })
        (.of_same (fun l => by cases l <;> rfl) rfl rfl fun _ => rfl) ?_
      exact (worked_modLane (Set.mem_univ _) (Lane.kept_loseWrite _)).toKept
    · exact .refl s
  · exact .refl s

theorem kept_swapOutside (s : State) (l : LaneId) : s.Kept (s.swapOutside l) :=
  (worked_swapLane s (Set.mem_univ l)).toKept.trans (kept_finishCommands _)

theorem worked_completeUnit (s : State) (k : UnitKind) : s.Worked ∅ (s.completeUnit k) := by
  have hidle : s.Worked ∅ { s with rwu := { s.rwu with unit := none } } := worked_setRwu rfl rfl fun l => by cases l <;> rfl
  unfold State.completeUnit
  dsimp only
  split
  · exact worked_setRwu rfl rfl fun l => by cases l <;> rfl
  · exact hidle
  · rename_i l _
    have howed (t : State) : t.Worked ∅ { t with rwu := t.rwu.clearOwed l } :=
      worked_setRwu (setReport_queue _ _ _) (setReport_dropCount _ _ _) fun m => by cases l <;> cases m <;> rfl
    split
    · split
      · exact (hidle.trans (howed _)).trans (worked_completeCommand _ _ _)
      · exact hidle.trans (howed _)
    · exact hidle
  · exact hidle.trans (worked_completeCommand _ _ _)

theorem kept_wordReported (s : State) : s.Kept s.wordReported := by
  unfold State.wordReported
  split
  · split
    · exact (worked_completeUnit _ _).toKept.trans (kept_finishCommands _)
    · exact .of_same (fun l => by cases l <;> rfl) rfl rfl fun l => by cases l <;> rfl
  · exact .refl s

end Sys2Proof.Machine

/-! ## Proofs: every step keeps the bounds, the equality of R66 and the object tables (O56, O58, O59) -/
namespace Sys2Proof.Machine

/-! ### Memory path and writer -/

/-- A change of the memory path alone. -/
theorem kept_setPtu (s : State) (p : Ptu) : s.Kept { s with ptu := p } :=
  .of_same (fun l => by cases l <;> rfl) rfl rfl fun _ => rfl

theorem kept_setCommit (s : State) (c : Commit) : s.Kept { s with rtu := { s.rtu with commit := c } } :=
  (worked_setCommit (L := ∅) s c).toKept

theorem kept_mergeStaged (s : State) (i : BitVec 10) (d : Word) (be : Enables) : s.Kept (s.mergeStaged i d be) :=
  .of_same (fun l => by cases l <;> rfl) rfl rfl fun _ => rfl

theorem kept_stagingWritten (s : State) (i : BitVec 10) (d : Word) (be : Enables) : s.Kept (s.stagingWritten i d be) := by
  have hend (c : CommandStatus) (d : Word) (t : State) : t.Kept (t.endCommit c d) := (worked_endCommit (L := ∅) t c d).toKept
  unfold State.stagingWritten
  dsimp only
  split
  · exact kept_mergeStaged s i d be
  · exact (kept_mergeStaged s i d be).trans (hend _ _ _)
  · exact (kept_mergeStaged s i d be).trans (hend _ _ _)

theorem kept_enterFifo (s : State) (e : FifoEntry) : s.Kept (s.enterFifo e) := by
  unfold State.enterFifo
  split <;> exact kept_setPtu s _

theorem kept_observe (s : State) (o : FrameOffset) (d : Word) (be : Enables) : s.Kept (s.observe o d be) := by
  unfold State.observe
  split
  · exact .refl s
  · exact kept_setCmu s _
  · unfold State.goWritten
    split
    · exact kept_goWordArrives s _
    · exact .refl s
  · unfold State.consumerWritten
    split
    · exact kept_setCmu s _
    · exact .refl s
  · exact (kept_stagingWritten s _ _ _).trans (kept_finishCommands _)
  · exact kept_enterFifo s _

theorem kept_acceptWrite (s : State) (a : WordAddr) (d : Word) (be : Enables) : s.Kept (s.acceptWrite a d be) := by
  unfold State.acceptWrite
  split
  · exact .refl s
  · unfold State.takeWrite
    dsimp only
    split
    · exact (kept_setPtu s _).trans (kept_observe _ _ _ _)
    · exact kept_setPtu s _

theorem kept_acceptRead (s : State) (a : WordAddr) (be : Enables) : s.Kept (s.acceptRead a be) := by
  unfold State.acceptRead
  split
  · exact .refl s
  · exact kept_setPtu s _

theorem kept_carryAccess (s : State) (a : Access) : s.Kept (s.carryAccess a) :=
  .of_same (fun l => by cases l <;> rfl) rfl rfl fun _ => rfl

theorem kept_carryPart (s : State) (o : FrameOffset) (d : Word) : s.Kept (s.carryPart o d) :=
  .of_same (fun l => by cases l <;> rfl) rfl rfl fun _ => rfl

theorem kept_accessCompletes (s : State) : s.Kept s.accessCompletes := by
  unfold State.accessCompletes
  split
  · exact (kept_setPtu s _).trans (kept_carryAccess _ _)
  · exact .refl s

theorem kept_partCompletes (s : State) : s.Kept s.partCompletes := by
  unfold State.partCompletes
  split
  · exact ((kept_setPtu s _).trans (kept_carryPart _ _ _)).trans (kept_wordReported _)
  · exact .refl s
  · exact .refl s

theorem kept_flushPath (s : State) : s.Kept s.flushPath := by
  have hpart : s.Kept s.flushPart := by
    unfold State.flushPart
    split
    · exact kept_carryPart s _ _
    · exact .refl s
    · exact .refl s
  have haccess (t : State) : t.Kept t.flushAccess := by
    unfold State.flushAccess
    split
    · exact kept_carryAccess t _
    · exact .refl t
  exact (hpart.trans (haccess _)).trans (kept_setPtu _ _)

theorem kept_handWord (s : State) : s.Kept s.handWord := by
  unfold State.handWord
  repeat' split
  · exact .of_same (fun l => by cases l <;> rfl) rfl rfl fun l => by cases l <;> rfl
  all_goals exact .refl s

/-! ### The writer's choice -/

/-- A change of the RWU that shortens its queue and takes snapshots out. -/
theorem kept_setRwu (s : State) {w : Rwu} (hqueue : w.queue.length ≤ s.rwu.queue.length)
    (hdrops : w.dropCount = s.rwu.dropCount)
    (hreport : ∀ l p, (w.report l).snapshot = some p → (s.rwu.report l).snapshot = some p) : s.Kept { s with rwu := w } where
  lanes l := by cases l <;> exact .refl _
  queue := hqueue.trans (le_max_left _ _)
  drops := hdrops ▸ le_max_left _ _
  waiting _ hw l p hp := hw l p (hreport l p hp)

/-- The choice of a lane block takes its snapshot out of the buffer. -/
theorem chooseLane_shrinks (w : Rwu) (l : LaneId) :
    (w.chooseLane l).queue.length ≤ w.queue.length ∧ (w.chooseLane l).dropCount = w.dropCount ∧
      ∀ m p, ((w.chooseLane l).report m).snapshot = some p → (w.report m).snapshot = some p := by
  unfold Rwu.chooseLane
  dsimp only
  split
  · refine ⟨by cases l <;> exact le_rfl, by cases l <;> rfl, fun m p h => ?_⟩
    cases l <;> cases m <;> first | exact h | cases h
  · exact ⟨le_rfl, rfl, fun _ _ h => h⟩

/-- A choice takes at most the head record, or one snapshot, and makes none. -/
theorem choose_shrinks (w : Rwu) (ci : BitVec 9) (f : BitVec 2) :
    (w.choose ci f).queue.length ≤ w.queue.length ∧ (w.choose ci f).dropCount = w.dropCount ∧
      ∀ l p, ((w.choose ci f).report l).snapshot = some p → (w.report l).snapshot = some p := by
  unfold Rwu.choose
  split
  · exact ⟨le_rfl, rfl, fun _ _ h => h⟩
  · split
    · unfold Rwu.chooseRecord
      split
      · rename_i hq
        exact ⟨by simp [Rwu.beginUnit, hq], rfl, fun l _ h => by cases l <;> exact h⟩
      · exact ⟨le_rfl, rfl, fun _ _ h => h⟩
    · split
      · exact ⟨le_rfl, rfl, fun l _ h => by cases l <;> exact h⟩
      · exact chooseLane_shrinks w _
      · unfold Rwu.chooseDump
        split
        · exact ⟨le_rfl, rfl, fun l _ h => by cases l <;> exact h⟩
        · exact ⟨le_rfl, rfl, fun _ _ h => h⟩
      · exact ⟨le_rfl, rfl, fun _ _ h => h⟩

theorem kept_chooseUnit (s : State) : s.Kept s.chooseUnit :=
  have ⟨hqueue, hdrops, hreport⟩ := choose_shrinks s.rwu s.cmu.consumerIndex s.ptu.frameSelect
  kept_setRwu s hqueue hdrops hreport

/-! ### Resets -/

theorem kept_assertPor (s : State) : s.Kept s.assertPor where
  lanes l := by rw [assertPor_lane]; exact Lane.kept_afterPor _
  queue := Nat.zero_le _
  drops := Nat.zero_le _
  waiting _ _ l p hp := by cases l <;> cases hp

theorem kept_assertWarm (s : State) : s.Kept s.assertWarm where
  lanes l := by rw [assertWarm_lane]; exact Lane.kept_afterWarm _ _
  queue := Nat.zero_le _
  drops := Nat.zero_le _
  waiting _ _ l p hp := by cases l <;> cases hp

theorem kept_announceReset (s : State) (w : Bool) : s.Kept (s.announceReset w) :=
  .trans (t := { s with rwu := { s.rwu with resetWarm := w } }) (.of_same (fun l => by cases l <;> rfl) rfl rfl fun l => by cases l <;> rfl)
    ((((worked_record (L := ∅) _ _).trans (worked_commonWaits _)).trans (worked_takeSnapshot _ _ _)).trans
      (worked_takeSnapshot _ _ _)).toKept

theorem kept_resume (s : State) (w : Bool) : s.Kept (s.resume w) := by
  unfold State.resume
  split
  · exact .refl s
  · exact kept_announceReset s w

theorem kept_releasePor (s : State) (f : BitVec 2) : s.Kept (s.releasePor f) := by
  unfold State.releasePor
  split
  · refine ((kept_flushPath s).trans ?_).trans (kept_resume _ _)
    exact .of_same (fun l => by cases l <;> rfl) rfl rfl fun _ => rfl
  · exact .refl s

theorem kept_releaseWarm (s : State) : s.Kept s.releaseWarm := by
  unfold State.releaseWarm
  split
  · refine ((kept_flushPath s).trans ?_).trans (kept_resume _ _)
    exact .of_same (fun l => by cases l <;> rfl) rfl rfl fun _ => rfl
  · exact .refl s

/-! ### Every command -/

theorem kept_swapAtEntry (s : State) (l : LaneId) : s.Kept (s.swapAtEntry l) := by
  unfold State.swapAtEntry
  split
  · exact kept_leaveFifo s
  · exact .refl s

theorem kept_execLaneSwap {s t : State} {n : Nat} {l : LaneId} (h : execLaneSwap n l s = .next t) : s.Kept t := by
  have howed : s.Kept ((s.settleCapture.settleDrain .lane0).settleDrain .lane1) :=
    (((worked_settleCapture s).trans (worked_settleDrain _ (Set.mem_univ _))).trans
      (worked_settleDrain _ (Set.mem_univ _))).toKept
  unfold execLaneSwap at h
  dsimp only at h
  split at h <;> cases h
  · exact howed.trans ((kept_begin _ n).trans (kept_swapAtEntry _ l))
  · exact howed.trans ((kept_pass _ n).trans (kept_swapOutside _ l))

/-- Every command keeps both lanes, the bounds of the event queue and the balance of waiting snapshots. -/
theorem kept_exec {c : Instr} {s t : State} (h : exec c s = .next t) : s.Kept t := by
  have hport (n a d be) : s.Kept ((s.begin n).acceptWrite a d be) := (kept_begin s n).trans (kept_acceptWrite _ a d be)
  have hvalve (n l w) (hw : ((s.begin n).lane l).Kept w.1) : s.Kept ((s.begin n).ejectorEvent l w) :=
    (kept_begin s n).trans (worked_ejectorEvent hw).toKept
  cases c with
  | laneSwap n l => exact kept_execLaneSwap h
  | por n => cases h; exact (kept_begin s n).trans (kept_assertPor _)
  | porRelease n f => cases h; exact (kept_begin s n).trans (kept_releasePor _ f)
  | crstn n => cases h; exact (kept_begin s n).trans (kept_assertWarm _)
  | crstnRelease n => cases h; exact (kept_begin s n).trans (kept_releaseWarm _)
  | uPortRead n a be => cases h; exact (kept_begin s n).trans (kept_acceptRead _ a be)
  | uPortWrite n a d be => cases h; exact hport n a d be
  | argumentWordWrite n i d be => cases h; exact hport n _ d be
  | consumerIndexWrite n d => cases h; exact hport n _ d _
  | stagingWrite n i d be => cases h; exact hport n _ d be
  | scanRingWrite n l p w d be => cases h; exact hport n _ d be
  | laneStart n u f q => cases h; exact hport n _ _ _
  | laneHold n u f q => cases h; exact hport n _ _ _
  | laneResume n u f q => cases h; exact hport n _ _ _
  | laneStop n u f q => cases h; exact hport n _ _ _
  | tableCommit n u f q => cases h; exact hport n _ _ _
  | valveTest n u f q => cases h; exact hport n _ _ _
  | statsSnapshot n u f q => cases h; exact hport n _ _ _
  | captureState n u f q => cases h; exact hport n _ _ _
  | badCommand n k u f q => cases h; exact hport n _ _ _
  | entryLeavesFifo n => cases h; exact (kept_begin s n).trans (kept_leaveFifo _)
  | stallLimit n => cases h; exact (kept_begin s n).trans (kept_stallEnds _)
  | triggerEdge n l => cases h; exact (kept_begin s n).trans (laneEvent_edge _ l).kept
  | tick n l => cases h; exact (kept_begin s n).trans (worked_tickFalls _ l).toKept
  | coastDeadline n l => cases h; exact (kept_begin s n).trans (laneEvent_deadlineFalls _ l).kept
  | syntheticLineStart n l => cases h; exact (kept_begin s n).trans (laneEvent_syntheticFalls _ l).kept
  | boostTimer n l v => cases h; exact hvalve n l _ (Lane.kept_boostExpires _ _ v)
  | carrierPeriod n l v => cases h; exact hvalve n l _ (Lane.kept_carrierTurns _ _ v)
  | maxOnGuard n l v => cases h; exact hvalve n l _ (Lane.kept_guardTrips _ l _ v)
  | recoveryEnd n l v => cases h; exact hvalve n l _ (Lane.kept_recoveryEnds _ _ v)
  | testDurationEnd n l v => cases h; exact hvalve n l _ (Lane.kept_testEnds _ _ v)
  | supplyDrop n l => cases h; exact (kept_begin s n).trans (worked_supplyFalls _ l).toKept
  | supplyReturn n l => cases h; exact (kept_begin s n).trans (worked_supplyRises _ l).toKept
  | scanEnd n => cases h; exact (kept_begin s n).trans ((worked_endScan _).toKept.trans (kept_finishCommands _))
  | drainCondition n l =>
    cases h
    exact ((worked_settleCapture s).trans (worked_settleDrain _ (Set.mem_singleton l))).toKept.trans (kept_pass _ n)
  | captureSnapshot n => cases h; exact (worked_settleCapture (L := ∅) s).toKept.trans (kept_pass _ n)
  | writerUnitChoice n => cases h; exact (kept_begin s n).trans (kept_chooseUnit _)
  | writerWordHanded n => cases h; exact (kept_begin s n).trans (kept_handWord _)
  | sportArbitration n => cases h; exact (kept_begin s n).trans (kept_setPtu _ _)
  | controllerAccessDone n => cases h; exact (kept_begin s n).trans (kept_accessCompletes _)
  | partWriteDone n => cases h; exact (kept_begin s n).trans (kept_partCompletes _)

/-! ### Every step -/

/-- A step executes the front command on the queue's rest, or lets one clock pass. -/
theorem step_cases {s t : State} (h : step s = .next t) :
    (s.pending = [] ∧ t = { s with now := s.now + 1 }) ∨
      ∃ c rest, s.pending = c :: rest ∧ exec c { s with pending := rest } = .next t := by
  unfold step at h
  split at h
  · rename_i c rest hp
    exact .inr ⟨c, rest, hp, h⟩
  · rename_i hp
    cases h
    exact .inl ⟨hp, rfl⟩

theorem kept_step {s t : State} (h : step s = .next t) : s.Kept t := by
  obtain ⟨-, rfl⟩ | ⟨c, rest, -, hexec⟩ := step_cases h
  · exact .of_same (fun l => by cases l <;> rfl) rfl rfl fun _ => rfl
  · refine .trans (t := { s with pending := rest }) ?_ (kept_exec hexec)
    exact .of_same (fun l => by cases l <;> rfl) rfl rfl fun _ => rfl

theorem forall_lane {p : LaneId → Prop} (h0 : p .lane0) (h1 : p .lane1) (l : LaneId) : p l := by cases l <;> assumption

/-- Settles O58: every operation keeps the equality of R66 in its lane's counters, and a snapshot copies counters. -/
theorem stepKeepsDecisionsBalanced : Obligations.StepKeepsDecisionsBalanced := by
  intro s t hs hstep
  have hkept := kept_step hstep
  have hlanes : ∀ l, (s.lane l).counters.Balanced := forall_lane hs.lane0 hs.lane1
  have hwaiting := hkept.waiting hlanes (forall_lane hs.wait0 hs.wait1)
  exact
    { lane0 := (hkept.lanes .lane0).balanced hs.lane0
      lane1 := (hkept.lanes .lane1).balanced hs.lane1
      wait0 := hwaiting .lane0
      wait1 := hwaiting .lane1 }

/-- Settles O59: every operation keeps its lane's object table sound; the tracker's work on a data line is
`Lane.TableSound.trackLine`. -/
theorem stepKeepsTablesSound : Obligations.StepKeepsTablesSound := fun _ _ h0 h1 hstep =>
  ⟨((kept_step hstep).lanes .lane0).table h0, ((kept_step hstep).lanes .lane1).table h1⟩

end Sys2Proof.Machine

/-! ## Proofs: time, the memory path and the SRAM (sections 10.1 to 10.6; O2, O3, O56)

`State.Advances` says what every command does outside the blocks once its time has passed: the queue of commands and the
counts of clocks and steps stay, the path stays coherent, the SRAM's list stays canonical. -/
namespace Sys2Proof.Machine

/-- Queue and counts stay; a coherent path and a canonical memory stay so. -/
structure State.Advances (s t : State) : Prop where
  pending : t.pending = s.pending
  now : t.now = s.now
  events : t.events = s.events
  path : s.PathSound → t.PathSound
  wf : s.sram.wf → t.sram.wf

/-- As before, and no byte of the SRAM changes. -/
structure State.Observes (s t : State) : Prop extends s.Advances t where
  sram : t.sram = s.sram

namespace State.Advances

theorem trans {s t u : State} (h : s.Advances t) (k : t.Advances u) : s.Advances u :=
  ⟨k.pending.trans h.pending, k.now.trans h.now, k.events.trans h.events, k.path ∘ h.path, k.wf ∘ h.wf⟩

end State.Advances

namespace State.Observes

theorem refl (s : State) : s.Observes s := ⟨⟨rfl, rfl, rfl, id, id⟩, rfl⟩

theorem trans {s t u : State} (h : s.Observes t) (k : t.Observes u) : s.Observes u :=
  ⟨h.toAdvances.trans k.toAdvances, k.sram.trans h.sram⟩

end State.Observes

theorem State.PathSound.of_ptu {s t : State} (h : s.PathSound) (hptu : t.ptu = s.ptu) (hreset : t.inReset = s.inReset) :
    t.PathSound where
  fifo := hptu ▸ h.fifo
  writer := hptu ▸ h.writer
  stall := by rw [hptu, hreset]; exact h.stall
  carried := hptu ▸ h.carried
  guarded := by rw [hptu]; exact h.guarded

/-- The work of the blocks behind the memory path. -/
theorem State.SamePath.observes {s t : State} (h : s.SamePath t) : s.Observes t where
  pending := h.pending
  now := h.now
  events := h.events
  path hs := hs.of_ptu h.ptu h.inReset
  wf hs := h.sram ▸ hs
  sram := h.sram

/-- A change of the memory path alone, outside the SRAM. -/
theorem observes_setPtu {s : State} {p : Ptu} (h : s.PathSound → ({ s with ptu := p } : State).PathSound) :
    s.Observes { s with ptu := p } := ⟨⟨rfl, rfl, rfl, h, id⟩, rfl⟩

theorem observes_begin (s : State) (n : Nat) : (s.pass n).Observes (s.begin n) := (begin_samePath s n).observes

/-! ### The U-port -/

/-- With no access in progress nothing is stalled, guarded, or on the S-port for the controller. -/
theorem State.PathSound.at_rest {s : State} (h : s.PathSound) (hfree : s.ptu.access = none) :
    s.ptu.stall = none ∧ s.ptu.guarded = false ∧ s.ptu.sport ≠ .controller := by
  refine ⟨?_, ?_, fun hc => ?_⟩
  · by_contra hstall
    have := (h.stall (Option.isSome_iff_ne_none.2 hstall)).2.1
    simp [hfree] at this
  · by_contra hguarded
    have := (h.guarded (by simpa using hguarded)).1
    simp [hfree] at this
  · have := h.carried hc
    simp [hfree] at this

theorem observes_hold {s : State} (hfree : s.ptu.access = none) (a : Access) : s.Observes (s.hold a) := by
  refine observes_setPtu fun h => ?_
  obtain ⟨hstall, hguarded, hsport⟩ := h.at_rest hfree
  exact
    { fifo := h.fifo
      writer := h.writer
      stall := by simp [hstall]
      carried := fun _ => rfl
      guarded := by simp [hguarded] }

/-- A scan-ring write enters the FIFO, or is stalled behind a full one while its access waits (R186, R189). -/
theorem observes_enterFifo {s : State} (hfree : s.ptu.access = none) (hreset : s.inReset = false) (a : Access)
    (e : FifoEntry) : s.Observes ((s.hold a).enterFifo e) := by
  unfold State.enterFifo
  split
  · rename_i hroom
    refine observes_setPtu fun h => ?_
    obtain ⟨hstall, hguarded, hsport⟩ := h.at_rest hfree
    exact
      { fifo := by simpa [State.hold] using hroom
        writer := h.writer
        stall := by simp [State.hold, hstall]
        carried := fun _ => rfl
        guarded := by simp [State.hold, hguarded] }
  · rename_i hfull
    refine observes_setPtu fun h => ?_
    obtain ⟨-, hguarded, hsport⟩ := h.at_rest hfree
    exact
      { fifo := h.fifo
        writer := h.writer
        stall := fun _ => ⟨le_antisymm h.fifo (Nat.not_lt.1 hfull), rfl, hsport, hreset⟩
        carried := fun _ => rfl
        guarded := by simp [State.hold, hguarded] }

theorem observes_observe {s : State} (hfree : s.ptu.access = none) (hreset : s.inReset = false) (a : Access)
    (o : FrameOffset) (d : Word) (be : Enables) : s.Observes ((s.hold a).observe o d be) := by
  have hheld := observes_hold hfree a
  unfold State.observe
  split
  · exact hheld
  · exact hheld.trans (samePath_setCmu _ _).observes
  · unfold State.goWritten
    split
    · exact hheld.trans (samePath_goWordArrives _ d).observes
    · exact hheld
  · unfold State.consumerWritten
    split
    · exact hheld.trans (samePath_setCmu _ _).observes
    · exact hheld
  · exact hheld.trans ((samePath_stagingWritten _ _ _ _).trans (samePath_finishCommands _)).observes
  · exact observes_enterFifo hfree hreset a _

theorem observes_acceptWrite (s : State) (a : WordAddr) (d : Word) (be : Enables) : s.Observes (s.acceptWrite a d be) := by
  unfold State.acceptWrite
  split
  · exact .refl s
  · rename_i hfree
    unfold State.takeWrite
    dsimp only
    split
    · rename_i hwatched
      simp only [Bool.and_eq_true, Bool.not_eq_true'] at hwatched
      exact observes_observe hfree hwatched.1 _ _ _ _
    · exact observes_hold hfree _

theorem observes_acceptRead (s : State) (a : WordAddr) (be : Enables) : s.Observes (s.acceptRead a be) := by
  unfold State.acceptRead
  split
  · exact .refl s
  · rename_i hfree
    exact observes_hold hfree _

/-! ### The observation FIFO -/

/-- The head leaves, and a stalled write takes the freed place (R187, R189). -/
theorem observes_leave {s : State} {e : FifoEntry} {rest : List FifoEntry} (hfifo : s.ptu.fifo = e :: rest) :
    s.Observes { s with ptu := s.ptu.leave rest } := by
  refine observes_setPtu fun h => ?_
  have hlength := h.fifo
  rw [hfifo, List.length_cons] at hlength
  unfold Ptu.leave
  split
  · rename_i hstall
    exact
      { fifo := by simpa using hlength
        writer := h.writer
        stall := by simp
        carried := h.carried
        guarded := fun hg => by simpa [hstall] using (h.guarded hg).2.1 }
  · rename_i hstall
    exact
      { fifo := by simp; omega
        writer := h.writer
        stall := by simp [hstall]
        carried := h.carried
        guarded := h.guarded }

theorem observes_leaveFifo (s : State) : s.Observes s.leaveFifo := by
  unfold State.leaveFifo
  split
  · rename_i hfifo
    exact (observes_leave hfifo).trans ((samePath_judgeEntry _ _).trans (samePath_endIntake _ _ _)).observes
  · exact .refl s

theorem observes_stallEnds (s : State) : s.Observes s.stallEnds := by
  have hended : s.Observes { s with ptu := { s.ptu with stall := none } } := observes_setPtu fun h =>
    { fifo := h.fifo
      writer := h.writer
      stall := by simp
      carried := h.carried
      guarded := fun hg => ⟨(h.guarded hg).1, rfl, (h.guarded hg).2.2⟩ }
  unfold State.stallEnds
  split
  · split
    · exact hended.trans (samePath_modLane _ _ _).observes
    · exact .refl s
  · exact .refl s

/-! ### The S-port and the writer queue -/

theorem observes_arbitrate (s : State) (n : Nat) : s.Observes { s with ptu := s.ptu.arbitrate n } := by
  refine observes_setPtu fun h => ?_
  obtain ⟨-, hsame⟩ | ⟨-, hwaits, -, hnext⟩ | ⟨w, rest, -, hqueue, hword⟩ := arbitrate_cases s.ptu n
  · rw [hsame]
    exact h
  · simp only [Ptu.accessWaits, Bool.and_eq_true, Option.isNone_iff_eq_none] at hwaits
    rw [hnext]
    exact
      { fifo := h.fifo
        writer := h.writer
        stall := by simp [hwaits.2]
        carried := fun _ => hwaits.1
        guarded := by simp }
  · have hwriter := h.writer
    rw [hqueue, List.length_cons] at hwriter
    obtain ⟨-, hnext⟩ | ⟨hwaits, -, -, hnext⟩ := hword <;> rw [hnext]
    · exact
        { fifo := h.fifo
          writer := (Nat.le_succ _).trans hwriter
          stall := fun hs => have ⟨hfull, ha, _, hr⟩ := h.stall hs; ⟨hfull, ha, by simp, hr⟩
          carried := by simp
          guarded := fun hg => have ⟨ha, hs, _⟩ := h.guarded hg; ⟨ha, hs, by simp⟩ }
    · simp only [Ptu.accessWaits, Bool.and_eq_true, Option.isNone_iff_eq_none] at hwaits
      exact
        { fifo := h.fifo
          writer := (Nat.le_succ _).trans hwriter
          stall := by simp [hwaits.2]
          carried := by simp
          guarded := fun _ => ⟨hwaits.1, hwaits.2, by simp⟩ }

theorem observes_handWord (s : State) : s.Observes s.handWord := by
  unfold State.handWord
  split
  · split
    · split
      · rename_i hroom
        refine ⟨⟨rfl, rfl, rfl, fun h => ?_, id⟩, rfl⟩
        exact
          { fifo := h.fifo
            writer := by simpa using hroom
            stall := h.stall
            carried := h.carried
            guarded := h.guarded }
      · exact .refl s
    · exact .refl s
  · exact .refl s

theorem samePath_chooseUnit (s : State) : s.SamePath s.chooseUnit := samePath_setRwu _ _

theorem advances_accessCompletes (s : State) : s.Advances s.accessCompletes := by
  unfold State.accessCompletes
  split
  · rename_i a hsport haccess
    refine ⟨rfl, rfl, rfl, fun h => ?_, fun h => wf_carry a h⟩
    have hstall : s.ptu.stall = none := by
      by_contra hs
      exact (h.stall (Option.isSome_iff_ne_none.2 hs)).2.2.1 hsport
    exact
      { fifo := h.fifo
        writer := h.writer
        stall := fun hs => by simp [State.carryAccess, hstall] at hs
        carried := fun hc => by cases hc
        guarded := fun hg => absurd hsport (h.guarded hg).2.2 }
  · exact (State.Observes.refl s).toAdvances

theorem wf_carryPart {s : State} (o : FrameOffset) (d : Word) (h : s.sram.wf) : (s.carryPart o d).sram.wf := by
  rw [carryPart_sram]
  exact wf_carry _ h

theorem advances_partCompletes (s : State) : s.Advances s.partCompletes := by
  unfold State.partCompletes
  split
  · rename_i o d _
    refine .trans (t := ({ s with ptu := { s.ptu with sport := .free } } : State).carryPart o d)
      ⟨rfl, rfl, rfl, fun h => ?_, fun h => wf_carryPart o d h⟩ (samePath_wordReported _).observes.toAdvances
    exact
      { fifo := h.fifo
        writer := h.writer
        stall := fun hs => have ⟨hfull, ha, _, hr⟩ := h.stall hs; ⟨hfull, ha, nofun, hr⟩
        carried := fun hc => by cases hc
        guarded := fun hg => have ⟨ha, hs, _⟩ := h.guarded hg; ⟨ha, hs, nofun⟩ }
  · exact (State.Observes.refl s).toAdvances
  · exact (State.Observes.refl s).toAdvances

/-! ### Resets -/

/-- The path at an assertion: a stalled write goes to a free S-port at once (R196). -/
theorem State.PathSound.atReset {s t : State} (h : s.PathSound) (hptu : t.ptu = s.ptu.atReset) : t.PathSound where
  fifo := by simp [hptu, Ptu.atReset]
  writer := by simp [hptu, Ptu.atReset]
  stall := by simp [hptu, Ptu.atReset]
  carried := by
    rw [hptu]
    intro hc
    simp only [Ptu.atReset] at hc ⊢
    split at hc
    · rename_i hstalled
      simp only [Bool.and_eq_true] at hstalled
      exact (h.stall hstalled.1).2.1
    · exact h.carried hc
  guarded := by simp [hptu, Ptu.atReset]

theorem observes_assertPor (s : State) : s.Observes s.assertPor := ⟨⟨rfl, rfl, rfl, fun h => h.atReset rfl, id⟩, rfl⟩

theorem observes_assertWarm (s : State) : s.Observes s.assertWarm := ⟨⟨rfl, rfl, rfl, fun h => h.atReset rfl, id⟩, rfl⟩

theorem samePath_resume (s : State) (w : Bool) : s.SamePath (s.resume w) := by
  unfold State.resume
  split
  · exact .rfl' s
  · exact ((((samePath_setRwu s _).trans (samePath_record _ _)).trans (samePath_commonWaits _)).trans
      (samePath_takeSnapshot _ _ _)).trans (samePath_takeSnapshot _ _ _)

/-- The path after a release is at rest, with its FIFO and writer queue as they were. -/
structure State.Flushed (s t : State) : Prop where
  pending : t.pending = s.pending
  now : t.now = s.now
  events : t.events = s.events
  fifo : t.ptu.fifo = s.ptu.fifo
  stall : t.ptu.stall = s.ptu.stall
  writer : t.ptu.writerQueue = s.ptu.writerQueue
  sport : t.ptu.sport = .free
  guarded : t.ptu.guarded = false
  wf : s.sram.wf → t.sram.wf

theorem flushed_flushPath (s : State) : s.Flushed s.flushPath := by
  have hpart (h : s.sram.wf) : s.flushPart.sram.wf := by
    unfold State.flushPart
    split
    · exact wf_carryPart _ _ h
    · exact h
    · exact h
  have haccess (t : State) (h : t.sram.wf) : t.flushAccess.sram.wf := by
    unfold State.flushAccess
    split
    · exact wf_carry _ h
    · exact h
  have hrest : s.flushPath.pending = s.pending ∧ s.flushPath.now = s.now ∧ s.flushPath.events = s.events ∧
      s.flushPath.ptu.fifo = s.ptu.fifo ∧ s.flushPath.ptu.stall = s.ptu.stall ∧
      s.flushPath.ptu.writerQueue = s.ptu.writerQueue := by
    unfold State.flushPath State.flushAccess State.flushPart
    dsimp only
    split <;> split <;> exact ⟨rfl, rfl, rfl, rfl, rfl, rfl⟩
  obtain ⟨hpending, hnow, hevents, hfifo, hstall, hwriter⟩ := hrest
  exact ⟨hpending, hnow, hevents, hfifo, hstall, hwriter, rfl, rfl, fun h => haccess _ (hpart h)⟩

/-- A release leaves a coherent path: under reset nothing is stalled (R196, R197). -/
theorem State.Flushed.advances {s t u : State} (h : s.Flushed t) (hreset : s.inReset = true) (hpending : u.pending = t.pending)
    (hnow : u.now = t.now) (hevents : u.events = t.events) (hsram : u.sram = t.sram) {f : BitVec 2}
    (hptu : u.ptu = { t.ptu with frameSelect := f }) : s.Advances u where
  pending := hpending.trans h.pending
  now := hnow.trans h.now
  events := hevents.trans h.events
  wf hw := hsram ▸ h.wf hw
  path hs := by
    have hstall : s.ptu.stall = none := by
      by_contra hne
      have := (hs.stall (Option.isSome_iff_ne_none.2 hne)).2.2.2
      simp [hreset] at this
    exact
      { fifo := by simpa [hptu, h.fifo] using hs.fifo
        writer := by simpa [hptu, h.writer] using hs.writer
        stall := by simp [hptu, h.stall, hstall]
        carried := by simp [hptu, h.sport]
        guarded := by simp [hptu, h.guarded] }

theorem advances_releasePor (s : State) (f : BitVec 2) : s.Advances (s.releasePor f) := by
  unfold State.releasePor
  split
  · rename_i hpor
    refine .trans ?_ (samePath_resume _ _).observes.toAdvances
    exact (flushed_flushPath s).advances (by simp [State.inReset, hpor]) rfl rfl rfl rfl rfl
  · exact (State.Observes.refl s).toAdvances

theorem advances_releaseWarm (s : State) : s.Advances s.releaseWarm := by
  unfold State.releaseWarm
  split
  · rename_i hcrst
    refine .trans ?_ (samePath_resume _ _).observes.toAdvances
    exact (flushed_flushPath s).advances (f := s.flushPath.ptu.frameSelect) (by simp [State.inReset, hcrst]) rfl rfl rfl rfl rfl
  · exact (State.Observes.refl s).toAdvances

/-! ### Every command -/

theorem samePath_supplyFalls (s : State) (l : LaneId) : s.SamePath (s.supplyFalls l) := by
  unfold State.supplyFalls
  split
  · exact .rfl' s
  · split
    · exact samePath_modLane _ _ _
    · exact samePath_ejectorEvent _ _ _

theorem samePath_supplyRises (s : State) (l : LaneId) : s.SamePath (s.supplyRises l) := by
  unfold State.supplyRises
  split
  · exact .rfl' s
  · split
    · exact samePath_modLane _ _ _
    · exact samePath_ejectorEvent _ _ _

theorem State.SamePath.pass {s t : State} (h : s.SamePath t) (n : Nat) : (s.pass n).SamePath (t.pass n) where
  ptu := h.ptu
  sram := h.sram
  pending := h.pending
  now := congrArg (· + n) h.now
  events := congrArg (· + 1) h.events
  por := h.por
  crst := h.crst

theorem observes_execLaneSwap (s : State) (n : Nat) (l : LaneId) :
    ∃ t, execLaneSwap n l s = .next t ∧ (s.pass n).Observes t := by
  have howed : s.SamePath ((s.settleCapture.settleDrain .lane0).settleDrain .lane1) :=
    ((samePath_settleCapture s).trans (samePath_settleDrain _ _)).trans (samePath_settleDrain _ _)
  unfold execLaneSwap
  dsimp only
  split
  · refine ⟨_, rfl, ((howed.pass n).observes.trans (observes_begin _ n)).trans ?_⟩
    unfold State.swapAtEntry
    split
    · exact observes_leaveFifo _
    · exact .refl _
  · exact ⟨_, rfl, (howed.pass n).observes.trans (samePath_swapOutside _ l).observes⟩

/-- Every command answers a next state, which advances from the state in which its time has passed; the SRAM stays but at the
completion of an access and at a release. -/
theorem exec_advances (c : Instr) (s : State) :
    ∃ t, exec c s = .next t ∧ (s.pass c.after).Advances t ∧ (c.reachesSram = false → t.sram = s.sram) := by
  have hbegin (n) : (s.pass n).Observes (s.begin n) := observes_begin s n
  have hobserved {n t} (h : (s.begin n).Observes t) : (s.pass n).Advances t ∧ t.sram = s.sram :=
    have hall := (hbegin n).trans h
    ⟨hall.toAdvances, hall.sram⟩
  have hport (n a d be) := hobserved (observes_acceptWrite (s.begin n) a d be)
  have hvalve (n l w) := hobserved (samePath_ejectorEvent (s.begin n) l w).observes
  have hsame {n t} (h : (s.begin n).SamePath t) := hobserved h.observes
  have hdone {c : Instr} {t : State} (hexec : exec c s = .next t)
      (h : (s.pass c.after).Advances t ∧ t.sram = s.sram) :
      ∃ t, exec c s = .next t ∧ (s.pass c.after).Advances t ∧ (c.reachesSram = false → t.sram = s.sram) :=
    ⟨t, hexec, h.1, fun _ => h.2⟩
  have hreach {c : Instr} {t : State} (hexec : exec c s = .next t) (h : (s.begin c.after).Advances t)
      (hc : c.reachesSram = true) :
      ∃ t, exec c s = .next t ∧ (s.pass c.after).Advances t ∧ (c.reachesSram = false → t.sram = s.sram) :=
    ⟨t, hexec, (hbegin _).toAdvances.trans h, fun hf => by simp [hc] at hf⟩
  cases c with
  | laneSwap n l =>
    obtain ⟨t, hexec, h⟩ := observes_execLaneSwap s n l
    exact hdone (c := .laneSwap n l) hexec ⟨h.toAdvances, h.sram⟩
  | por n => exact hdone rfl (hobserved (observes_assertPor _))
  | porRelease n f => exact hreach (c := .porRelease n f) rfl (advances_releasePor _ f) rfl
  | crstn n => exact hdone rfl (hobserved (observes_assertWarm _))
  | crstnRelease n => exact hreach (c := .crstnRelease n) rfl (advances_releaseWarm _) rfl
  | uPortRead n a be => exact hdone rfl (hobserved (observes_acceptRead _ a be))
  | uPortWrite n a d be => exact hdone rfl (hport n a d be)
  | argumentWordWrite n i d be => exact hdone rfl (hport n _ d be)
  | consumerIndexWrite n d => exact hdone rfl (hport n _ d _)
  | stagingWrite n i d be => exact hdone rfl (hport n _ d be)
  | scanRingWrite n l p w d be => exact hdone rfl (hport n _ d be)
  | laneStart n u f q => exact hdone rfl (hport n _ _ _)
  | laneHold n u f q => exact hdone rfl (hport n _ _ _)
  | laneResume n u f q => exact hdone rfl (hport n _ _ _)
  | laneStop n u f q => exact hdone rfl (hport n _ _ _)
  | tableCommit n u f q => exact hdone rfl (hport n _ _ _)
  | valveTest n u f q => exact hdone rfl (hport n _ _ _)
  | statsSnapshot n u f q => exact hdone rfl (hport n _ _ _)
  | captureState n u f q => exact hdone rfl (hport n _ _ _)
  | badCommand n k u f q => exact hdone rfl (hport n _ _ _)
  | entryLeavesFifo n => exact hdone rfl (hobserved (observes_leaveFifo _))
  | stallLimit n => exact hdone rfl (hobserved (observes_stallEnds _))
  | triggerEdge n l => exact hdone rfl (hsame (samePath_edge _ l))
  | tick n l => exact hdone rfl (hsame (samePath_tickFalls _ l))
  | coastDeadline n l => exact hdone rfl (hsame (samePath_deadlineFalls _ l))
  | syntheticLineStart n l => exact hdone rfl (hsame (samePath_syntheticFalls _ l))
  | boostTimer n l v => exact hdone rfl (hvalve n l _)
  | carrierPeriod n l v => exact hdone rfl (hvalve n l _)
  | maxOnGuard n l v => exact hdone rfl (hvalve n l _)
  | recoveryEnd n l v => exact hdone rfl (hvalve n l _)
  | testDurationEnd n l v => exact hdone rfl (hvalve n l _)
  | supplyDrop n l => exact hdone rfl (hsame (samePath_supplyFalls _ l))
  | supplyReturn n l => exact hdone rfl (hsame (samePath_supplyRises _ l))
  | scanEnd n => exact hdone rfl (hsame ((samePath_endScan _).trans (samePath_finishCommands _)))
  | drainCondition n l =>
    have h := (((samePath_settleCapture s).trans (samePath_settleDrain _ l)).pass n).observes
    exact hdone rfl ⟨h.toAdvances, h.sram⟩
  | captureSnapshot n =>
    have h := ((samePath_settleCapture s).pass n).observes
    exact hdone rfl ⟨h.toAdvances, h.sram⟩
  | writerUnitChoice n => exact hdone rfl (hsame (samePath_chooseUnit _))
  | writerWordHanded n => exact hdone rfl (hobserved (observes_handWord _))
  | sportArbitration n => exact hdone rfl (hobserved (observes_arbitrate _ _))
  | controllerAccessDone n => exact hreach (c := .controllerAccessDone n) rfl (advances_accessCompletes _) rfl
  | partWriteDone n => exact hreach (c := .partWriteDone n) rfl (advances_partCompletes _) rfl

/-- The same, of the state a command is known to answer. -/
theorem advances_of_exec {c : Instr} {s t : State} (h : exec c s = .next t) :
    (s.pass c.after).Advances t ∧ (c.reachesSram = false → t.sram = s.sram) := by
  obtain ⟨u, hexec, hu⟩ := exec_advances c s
  rw [hexec] at h
  cases h
  exact hu

/-- Settles O2, by `exec_advances`. -/
theorem commandsCompleteAndCountTime : Obligations.CommandsCompleteAndCountTime := by
  intro c s
  obtain ⟨t, hexec, h, -⟩ := exec_advances c s
  exact ⟨t, hexec, h.pending, h.now, h.events⟩

/-- A byte that a word write does not enable stays (R183). -/
theorem readByte_carry_of_ne {m : Memory} {x : Access} {b : Nat}
    (h : ∀ n : Fin 4, x.write = true → x.be[n] = true → b ≠ x.addr.toNat * 4 + n.val) :
    Memory.readByte (m.carry x) b = Memory.readByte m b := by
  rw [readByte_carry, if_neg]
  rintro ⟨hwrite, n, hbe, hb⟩
  exact h n hwrite hbe hb

/-- Settles O3: a completion carries one access, which changes the enabled bytes of its word alone. -/
theorem sramChangesOnlyAtCompletion : Obligations.SramChangesOnlyAtCompletion := by
  refine ⟨fun c s t h => (advances_of_exec h).2, fun s t n a ha h b hb => ?_, fun s t n o d ho h b hb => ?_⟩
  · have hsame := begin_samePath s n
    cases h
    unfold State.accessCompletes
    split
    · rename_i x _ hx
      have hxa : x = a := by rw [hsame.ptu, pass_ptu, ha] at hx; exact (Option.some.inj hx).symm
      show Memory.readByte ((s.begin n).sram.carry x) b = _
      rw [hxa, readByte_carry_of_ne hb, hsame.sram, pass_sram]
    · rw [hsame.sram, pass_sram]
  · have hsame := begin_samePath s n
    cases h
    unfold State.partCompletes
    split
    · rename_i o' d' hx
      rw [hsame.ptu, pass_ptu, ho] at hx
      cases hx
      rw [(samePath_wordReported _).sram, carryPart_sram, readByte_carry_of_ne, hsame.sram, pass_sram]
      intro k _ _ hk
      refine hb ?_
      have haddr : (addressOf (s.begin n).ptu.frameSelect o).toNat = (addressOf s.ptu.frameSelect o).toNat := by
        rw [hsame.ptu, pass_ptu]
      have hlt := k.isLt
      simp only [wordBytes, Ptu.partAccess] at hk ⊢
      omega
    · rw [hsame.sram, pass_sram]
    · rw [hsame.sram, pass_sram]

/-- Settles O56: the lanes and the event queue by the walk of `kept_step`, the memory path and the SRAM by `exec_advances`. -/
theorem stepKeepsBounds : Obligations.StepKeepsBounds := by
  intro s t hs hwf hstep
  have hkept := kept_step hstep
  have hpath : t.PathSound ∧ t.sram.wf := by
    obtain ⟨-, rfl⟩ | ⟨c, rest, -, hexec⟩ := step_cases hstep
    · exact ⟨hs.path.of_ptu rfl rfl, hwf⟩
    · obtain ⟨hadvances, -⟩ := advances_of_exec hexec
      exact ⟨hadvances.path (hs.path.of_ptu rfl rfl), hadvances.wf hwf⟩
  exact
    ⟨{ path := hpath.1
       queue := hkept.queue.trans (max_le hs.queue le_rfl)
       drops := hkept.drops.trans (max_le hs.drops le_rfl)
       lane0 := (hkept.lanes .lane0).bounded hs.lane0
       lane1 := (hkept.lanes .lane1).bounded hs.lane1 }, hpath.2⟩

end Sys2Proof.Machine

/-! ## Proofs: what the events of one lane leave of the rest of the part (O4) -/
namespace Sys2Proof.Machine

/-- From a settled state with no command pending a timed event or a pin event of a lane is, once its time has passed, work on
that lane alone. -/
theorem worked_laneRow {s t : State} {l : LaneId} {n : Nat} (v : Fin 64) (hs : s.Settled) (hslot : s.cmu.slot = none)
    {c : Instr}
    (hc : c ∈ [Instr.triggerEdge n l, .tick n l, .coastDeadline n l, .syntheticLineStart n l, .boostTimer n l v,
      .carrierPeriod n l v, .maxOnGuard n l v, .recoveryEnd n l v, .testDurationEnd n l v, .supplyDrop n l,
      .supplyReturn n l]) (h : exec c s = .next t) : (s.pass n).Worked {l} t ∧ (s.pass n).SamePath t := by
  have hbegin : s.begin n = s.pass n := begin_of_settled hs n
  simp only [List.mem_cons, List.not_mem_nil, or_false] at hc
  rcases hc with rfl | rfl | rfl | rfl | rfl | rfl | rfl | rfl | rfl | rfl | rfl <;> cases h <;> rw [hbegin]
  · exact ⟨(laneEvent_edge _ l).worked hslot, samePath_edge _ _⟩
  · exact ⟨worked_tickFalls _ l, samePath_tickFalls _ _⟩
  · exact ⟨(laneEvent_deadlineFalls _ l).worked hslot, samePath_deadlineFalls _ _⟩
  · exact ⟨(laneEvent_syntheticFalls _ l).worked hslot, samePath_syntheticFalls _ _⟩
  · exact ⟨worked_ejectorEvent (Lane.kept_boostExpires _ _ v), samePath_ejectorEvent _ _ _⟩
  · exact ⟨worked_ejectorEvent (Lane.kept_carrierTurns _ _ v), samePath_ejectorEvent _ _ _⟩
  · exact ⟨worked_ejectorEvent (Lane.kept_guardTrips _ l _ v), samePath_ejectorEvent _ _ _⟩
  · exact ⟨worked_ejectorEvent (Lane.kept_recoveryEnds _ _ v), samePath_ejectorEvent _ _ _⟩
  · exact ⟨worked_ejectorEvent (Lane.kept_testEnds _ _ v), samePath_ejectorEvent _ _ _⟩
  · exact ⟨worked_supplyFalls _ l, samePath_supplyFalls _ _⟩
  · exact ⟨worked_supplyRises _ l, samePath_supplyRises _ _⟩

theorem other_lane_ne (l : LaneId) : l.other ≠ l := by cases l <;> decide

/-- Settles O4, by `worked_laneRow`. -/
theorem laneEventsLeaveOtherLane : Obligations.LaneEventsLeaveOtherLane := by
  intro s t l n v hs hslot c hc h
  obtain ⟨hworked, hpath⟩ := worked_laneRow v hs hslot hc h
  exact ⟨(hworked.other l.other (other_lane_ne l)).trans (pass_lane s n l.other), hpath.ptu, hpath.sram, hworked.staged,
    hworked.shadow, hworked.consumer⟩

end Sys2Proof.Machine

/-! ## Proofs: what work on a lane keeps of its mode's promises (sections 1.7, 5.4, 5.5, 6.2, 8.4)

Work that begins nothing (`Lane.Tame`) keeps an inert lane inert and a shut lane shut. Lines are handed in RUN and DRAIN alone
(`Lane.Intake`), where only the clock and the supply bind the lane. What the CMU found of the drain condition is right after each
of its evaluations (`Lane.evaluated`). -/
namespace Sys2Proof.Machine

/-- Both promises of one lane: those of its mode and that of its supply. -/
structure Lane.Sound (x : Lane) : Prop where
  modes : x.ModeSound
  supply : x.SupplySound

/-! ### The quiet report -/

theorem countValves_eq_zero {x : Lane} {p : Valve → Bool} : x.countValves p = 0 ↔ ∀ v, p (x.valve v) = false := by
  simp only [Lane.countValves, List.countP_eq_zero, Vector.mem_toList_iff, Vector.mem_iff_getElem, Lane.valve]
  constructor
  · intro h v
    simpa using h _ ⟨v.val, v.isLt, rfl⟩
  · rintro h y ⟨i, hi, rfl⟩
    simpa using h ⟨i, hi⟩

/-- The lane is quiet when its queue and its pending slots are empty and no valve is open (R101). -/
theorem quiet_iff {x : Lane} :
    x.quiet = true ↔ x.firings = [] ∧ (∀ v, (x.valve v).pending = none) ∧ ∀ v, (x.valve v).opening = none := by
  simp only [Lane.quiet, Bool.and_eq_true, List.isEmpty_iff, beq_iff_eq, countValves_eq_zero, Option.isSome_eq_false_iff,
    Option.isNone_iff_eq_none, and_assoc]

/-- The quiet report says whether the queue is empty and which valves wait or are open, and nothing more. -/
theorem quiet_congr {x y : Lane} (hfirings : y.firings = [] ↔ x.firings = [])
    (hpending : ∀ v, (y.valve v).pending.isSome = (x.valve v).pending.isSome)
    (hopening : ∀ v, (y.valve v).opening.isSome = (x.valve v).opening.isSome) : y.quiet = x.quiet := by
  have hnone {a b : Option Firing} (h : a.isSome = b.isSome) : a = none ↔ b = none := by cases a <;> cases b <;> simp_all
  have hnone' {a b : Option Opening} (h : a.isSome = b.isSome) : a = none ↔ b = none := by cases a <;> cases b <;> simp_all
  rw [Bool.eq_iff_iff, quiet_iff, quiet_iff, hfirings]
  simp only [fun v => hnone (hpending v), fun v => hnone' (hopening v)]

/-- The drain condition (R156). -/
theorem drained_iff {x : Lane} :
    x.drained = true ↔ x.block.drainLines ≤ x.drainCount ∧ x.objects = [] ∧ x.quiet = true := by
  simp [Lane.drained, and_assoc]

theorem firingOpen_of_opening {y : Valve} (h : y.opening = none) : y.firingOpen = none := by simp [Valve.firingOpen, h]

/-! ### Work that begins nothing -/

/-- A valve that waits for nothing goes on waiting for nothing, and opens by nothing. -/
structure Valve.StaysShut (a b : Valve) : Prop where
  pending : b.pending = none
  firingOpen : a.firingOpen = none → b.firingOpen = none
  opening : a.opening = none → b.opening = none

/-- Work on a lane that keeps its mode, its clock's state and its supply, and begins nothing in a lane that has no firing or
no supply. -/
structure Lane.Tame (x y : Lane) : Prop where
  mode : y.mode = x.mode
  clock : y.clock.state = x.clock.state
  supply : y.supplyGood = x.supplyGood
  due : y.drainDue = x.drainDue
  objects : x.objects = [] → y.objects = []
  assembly : x.assembly = none → y.assembly = none
  firings : x.firings = [] → y.firings = []
  valves : x.firings = [] ∨ x.supplyGood = false → ∀ v, (x.valve v).pending = none → (x.valve v).StaysShut (y.valve v)

namespace Lane.Tame

variable {x y z : Lane}

theorem refl (x : Lane) : x.Tame x := ⟨rfl, rfl, rfl, rfl, id, id, id, fun _ _ h => ⟨h, id, id⟩⟩

theorem trans (h : x.Tame y) (k : y.Tame z) : x.Tame z where
  mode := k.mode.trans h.mode
  clock := k.clock.trans h.clock
  supply := k.supply.trans h.supply
  due := k.due.trans h.due
  objects := k.objects ∘ h.objects
  assembly := k.assembly ∘ h.assembly
  firings := k.firings ∘ h.firings
  valves hx v hv :=
    have hxy := h.valves hx v hv
    have hyz := k.valves (hx.imp h.firings h.supply.trans) v hxy.pending
    ⟨hyz.pending, hyz.firingOpen ∘ hxy.firingOpen, hyz.opening ∘ hxy.opening⟩

/-- Work that leaves queue and valves and clears at most the table and the assembly. -/
theorem of_same (hmode : y.mode = x.mode) (hclock : y.clock.state = x.clock.state) (hsupply : y.supplyGood = x.supplyGood)
    (hdue : y.drainDue = x.drainDue) (hobjects : x.objects = [] → y.objects = [])
    (hassembly : x.assembly = none → y.assembly = none) (hfirings : y.firings = x.firings) (hvalves : y.valves = x.valves) :
    x.Tame y where
  mode := hmode
  clock := hclock
  supply := hsupply
  due := hdue
  objects := hobjects
  assembly := hassembly
  firings h := hfirings.trans h
  valves _ v hv := by
    have hsame : y.valve v = x.valve v := by simp only [Lane.valve, hvalves]
    rw [hsame]
    exact ⟨hv, id, id⟩

theorem inert (h : x.Tame y) (hx : x.Inert) : y.Inert where
  objects := h.objects hx.objects
  assembly := h.assembly hx.assembly
  firings := h.firings hx.firings
  valves v :=
    have hv := h.valves (.inl hx.firings) v (hx.valves v).1
    ⟨hv.pending, hv.firingOpen (hx.valves v).2⟩

theorem allShut (h : x.Tame y) (hidle : x.firings = [] ∨ x.supplyGood = false) (hpending : ∀ v, (x.valve v).pending = none)
    (hx : x.AllShut) : y.AllShut := fun v => (h.valves hidle v (hpending v)).opening (hx v)

theorem allShut_of_inert (h : x.Tame y) (hi : x.Inert) (hx : x.AllShut) : y.AllShut :=
  h.allShut (.inl hi.firings) (fun v => (hi.valves v).1) hx

end Lane.Tame

/-! ### The evaluation of the drain condition -/

/-- A lane after the CMU's evaluation: in DRAIN, where lines were handed or the quiet report has changed (R156). -/
def Lane.evaluated (x : Lane) (wasQuiet : Bool) (handed : Nat) : Lane :=
  if x.mode = .drain ∧ (0 < handed ∨ x.quiet ≠ wasQuiet) then { x with drainDue := x.drained } else x

theorem evaluateDrain_eq (s : State) (l : LaneId) (q : Bool) (n : Nat) :
    s.evaluateDrain l q n = s.modLane l fun x => x.evaluated q n := rfl

theorem evaluated_same (x : Lane) (q : Bool) (n : Nat) :
    x.evaluated q n = { x with drainDue := (x.evaluated q n).drainDue } := by
  unfold Lane.evaluated
  split <;> rfl

/-- A lane's promises but that about its drain condition do not depend on what was found of it. -/
theorem sound_drainDue {x : Lane} {b c : Bool} (hx : ({ x with drainDue := c } : Lane).Sound)
    (hdue : x.mode = .drain → b = true → x.objects = [] ∧ x.quiet = true) : ({ x with drainDue := b } : Lane).Sound where
  modes :=
    { off := fun hm => have ⟨hi, hc⟩ := hx.modes.off hm; ⟨⟨hi.objects, hi.assembly, hi.firings, hi.valves⟩, hc⟩
      hold := fun hm => have ⟨hi, hc⟩ := hx.modes.hold hm; ⟨⟨hi.objects, hi.assembly, hi.firings, hi.valves⟩, hc⟩
      fault := fun hm =>
        have ⟨hi, hs, hc⟩ := hx.modes.fault hm
        ⟨⟨hi.objects, hi.assembly, hi.firings, hi.valves⟩, hs, hc⟩
      sorting := hx.modes.sorting
      due := hdue }
  supply := hx.supply

theorem sound_forget {x : Lane} (hx : x.Sound) : ({ x with drainDue := false } : Lane).Sound :=
  sound_drainDue (c := x.drainDue) hx nofun

/-- An evaluation leaves a sound lane, where the lane is sound but for what was found before and that still holds unless it is
evaluated now. -/
theorem sound_evaluated {x : Lane} {q : Bool} {n : Nat} (hx : ({ x with drainDue := false } : Lane).Sound)
    (hdue : x.mode = .drain → n = 0 → x.quiet = q → x.drainDue = true → x.objects = [] ∧ x.quiet = true) :
    (x.evaluated q n).Sound := by
  unfold Lane.evaluated
  split
  · exact sound_drainDue hx fun _ hd => (drained_iff.1 hd).2
  · rename_i hnot
    refine sound_drainDue (b := x.drainDue) hx fun hm hd => ?_
    have hstill : n = 0 ∧ x.quiet = q := by
      simp only [hm, true_and, not_or, not_lt, Nat.le_zero, ne_eq, not_not] at hnot
      exact hnot
    exact hdue hm hstill.1 hstill.2 hd

/-- Tame work that ends with an evaluation against the quiet report from before. -/
theorem Lane.Tame.sound_evaluated {x y : Lane} (h : x.Tame y) (n : Nat) (hx : x.Sound) : (y.evaluated x.quiet n).Sound := by
  refine Machine.sound_evaluated ?_ fun hm _ hquiet hd => ?_
  · have hforgot : ({ x with drainDue := false } : Lane).Tame { y with drainDue := false } :=
      ⟨h.mode, h.clock, h.supply, rfl, h.objects, h.assembly, h.firings, h.valves⟩
    have hx' := sound_forget hx
    exact
      { modes :=
          { off := fun hm => have ⟨hi, hc⟩ := hx'.modes.off (h.mode ▸ hm); ⟨hforgot.inert hi, h.clock.trans hc⟩
            hold := fun hm => have ⟨hi, hc⟩ := hx'.modes.hold (h.mode ▸ hm); ⟨hforgot.inert hi, by rw [hforgot.clock]; exact hc⟩
            fault := fun hm =>
              have ⟨hi, hs, hc⟩ := hx'.modes.fault (h.mode ▸ hm)
              ⟨hforgot.inert hi, hforgot.allShut_of_inert hi hs, h.clock.trans hc⟩
            sorting := fun hm => by rw [hforgot.clock]; exact hx'.modes.sorting (h.mode ▸ hm)
            due := nofun }
        supply := fun hlow =>
          have hlow : x.supplyGood = false := h.supply ▸ hlow
          have ⟨hs, hp⟩ := hx.supply hlow
          ⟨h.allShut (.inr hlow) hp hs, fun v => (h.valves (.inr hlow) v (hp v)).pending⟩ }
  · have hbefore := hx.modes.due (h.mode ▸ hm) (h.due ▸ hd)
    exact ⟨h.objects hbefore.1, hquiet.trans hbefore.2⟩

/-- Tame work keeps a lane sound while its quiet report stands. -/
theorem Lane.Tame.sound {x y : Lane} (h : x.Tame y) (hquiet : y.quiet = x.quiet) (hx : x.Sound) : y.Sound := by
  have hsound := h.sound_evaluated 0 hx
  rwa [Lane.evaluated, if_neg (by simp [hquiet])] at hsound

end Sys2Proof.Machine

/-! ## Proofs: which work on a lane is tame, what lines handed leave, and the changes of mode -/
namespace Sys2Proof.Machine

/-! ### Work that leaves queue and valves -/

theorem quiet_of_same {x y : Lane} (hfirings : y.firings = x.firings) (hvalves : y.valves = x.valves) : y.quiet = x.quiet := by
  simp only [Lane.quiet, Lane.countValves, hfirings, hvalves]

/-- Work that leaves queue and valves and clears at most the table and the assembly keeps a lane sound. -/
theorem sound_of_same {x y : Lane} (hx : x.Sound) (hmode : y.mode = x.mode) (hclock : y.clock.state = x.clock.state)
    (hsupply : y.supplyGood = x.supplyGood) (hdue : y.drainDue = x.drainDue) (hobjects : x.objects = [] → y.objects = [])
    (hassembly : x.assembly = none → y.assembly = none) (hfirings : y.firings = x.firings) (hvalves : y.valves = x.valves) :
    y.Sound :=
  (Lane.Tame.of_same hmode hclock hsupply hdue hobjects hassembly hfirings hvalves).sound
    (quiet_of_same hfirings hvalves) hx

namespace Lane.Sound

variable {x : Lane}

theorem takeTable (hx : x.Sound) (bank : Vector Word 1024) (l : LaneId) : (x.takeTable bank l).Sound :=
  sound_of_same hx rfl rfl rfl rfl (fun h => by simp [Lane.takeTable, Lane.markMixed, h])
    (fun h => by simp [Lane.takeTable, h]) rfl rfl

/-- Counters bind no promise. -/
theorem counters (hx : x.Sound) (c : Counters) : ({ x with counters := c } : Lane).Sound :=
  sound_of_same hx rfl rfl rfl rfl id id rfl rfl

/-- E binds no promise. -/
theorem expected (hx : x.Sound) (e : LineNo) : ({ x with expected := e } : Lane).Sound :=
  sound_of_same hx rfl rfl rfl rfl id id rfl rfl

theorem trackExpected (hx : x.Sound) (n : Nat) : (x.trackExpected n).Sound := by
  induction n generalizing x with
  | zero => exact hx
  | succ n ih =>
    unfold Lane.trackExpected
    split
    · exact ih (hx.expected _)
    · exact hx

theorem loseWrite (hx : x.Sound) : x.loseWrite.Sound :=
  sound_of_same hx rfl rfl rfl rfl id (fun h => by simp [Lane.loseWrite, Lane.lossMark, Lane.count, h]) rfl rfl

theorem stray (hx : x.Sound) : x.stray.Sound := hx.counters _

theorem glitch (hx : x.Sound) : x.glitch.Sound := hx.counters _

/-- A clock that keeps its state. -/
theorem clock (hx : x.Sound) {c : Clock} (h : c.state = x.clock.state) : ({ x with clock := c } : Lane).Sound :=
  sound_of_same hx rfl h rfl rfl id id rfl rfl

theorem measureEdge (hx : x.Sound) (m : Nat) : (x.measureEdge m).Sound := by
  unfold Lane.measureEdge
  dsimp only
  split
  · exact hx.counters _
  · split
    · exact hx.clock rfl
    · exact hx

/-- A clock that goes on running in a lane whose mode lets it run (section 6.2). -/
theorem clock_runs (hx : x.Sound) {c : Clock} (hc : c.state.runs) (hoff : x.mode ≠ .off) (hfault : x.mode ≠ .fault) :
    ({ x with clock := c } : Lane).Sound where
  modes :=
    { off := fun h => absurd h hoff
      hold := fun h => have ⟨hi, _⟩ := hx.modes.hold h; ⟨⟨hi.objects, hi.assembly, hi.firings, hi.valves⟩, hc⟩
      fault := fun h => absurd h hfault
      sorting := fun _ => hc
      due := hx.modes.due }
  supply := hx.supply

/-- A lane whose clock runs is neither OFF nor in FAULT. -/
theorem mode_of_runs (hx : x.Sound) (hc : x.clock.state ≠ .idle) : x.mode ≠ .off ∧ x.mode ≠ .fault :=
  ⟨fun h => hc (hx.modes.off h).2, fun h => hc (hx.modes.fault h).2.2⟩

theorem enterCoasting (hx : x.Sound) (hc : x.clock.state ≠ .idle) : x.enterCoasting.Sound :=
  have ⟨hoff, hfault⟩ := hx.mode_of_runs hc
  (hx.clock_runs (c := { x.clock with state := .coasting, coastDeadline := none, episode := 0 }) (.inr (.inr rfl)) hoff
    hfault).counters _

end Lane.Sound

/-! ### Ticks -/

/-- An entry that comes due touches valves, counters and the episode's missed count alone. -/
theorem entryDue_same (x : Lane) (now : Nat) (f : Firing) :
    x.entryDue now f =
      { x with
        valves := (x.entryDue now f).valves, counters := (x.entryDue now f).counters
        episodeMissed := (x.entryDue now f).episodeMissed } := by
  unfold Lane.entryDue Lane.toPending
  dsimp only
  repeat' split
  all_goals rfl

theorem foldl_entryDue_same (now : Nat) (fs : List Firing) (x : Lane) :
    fs.foldl (Lane.entryDue now) x =
      { x with
        valves := (fs.foldl (Lane.entryDue now) x).valves, counters := (fs.foldl (Lane.entryDue now) x).counters
        episodeMissed := (fs.foldl (Lane.entryDue now) x).episodeMissed } := by
  induction fs generalizing x with
  | nil => rfl
  | cons f fs ih =>
    rw [List.foldl_cons, ih, entryDue_same x now f]

/-- With the supply low an entry that comes due touches no valve (R96). -/
theorem entryDue_valves_of_low {x : Lane} (h : x.supplyGood = false) (now : Nat) (f : Firing) :
    (x.entryDue now f).valves = x.valves := by
  simp [Lane.entryDue, h, Lane.episodeMiss, Lane.countMissed]

theorem foldl_entryDue_valves_of_low (now : Nat) (fs : List Firing) {x : Lane} (h : x.supplyGood = false) :
    (fs.foldl (Lane.entryDue now) x).valves = x.valves := by
  induction fs generalizing x with
  | nil => rfl
  | cons f fs ih =>
    have hlow : (x.entryDue now f).supplyGood = false := by rw [entryDue_same]; exact h
    rw [List.foldl_cons, ih hlow, entryDue_valves_of_low h]

/-- A valve at a tick: the opening that closes at it ends, then the pending entry that closes at it is missed (R86). -/
def Lane.valveAtTick (x : Lane) (now : Nat) (t : TickTime) (y : Valve) : Valve :=
  let z := if y.closesAt t then x.toRecover now (x.endTickAtClose t) y else y
  if z.pendingClosesAt t then { z with pending := none } else z

/-- A lane after the ends at a tick, before its due entries are taken. -/
def Lane.tickEnds (x : Lane) (now : Nat) (t : TickTime) : Lane :=
  { x with
    firings := x.firings.filter fun f => !(f.openTick == t)
    valves := (x.mapValves (x.valveAtTick now t)).valves
    counters := x.counters.missed .valveBusy (x.countValves (Valve.pendingClosesAt t)) }

theorem mapValves_valves (x : Lane) (f : Valve → Valve) : (x.mapValves f).valves = x.valves.map f := by
  simp only [Lane.mapValves]
  ext i hi
  simp

theorem countValves_eq (x : Lane) (p : Valve → Bool) : x.countValves p = x.valves.toList.countP p := rfl

theorem pendingClosesAt_toRecover (x : Lane) (now : Nat) (e : Option TickTime) (t : TickTime) (y : Valve) :
    (x.toRecover now e y).pendingClosesAt t = y.pendingClosesAt t := rfl

/-- A tick: what closes at it ends, then the entries whose open tick it is come due, in queue order (R86). -/
theorem ejectorTick_eq (x : Lane) (now : Nat) (t : TickTime) :
    x.ejectorTick now t =
      (x.firings.filter fun f => f.openTick == t).foldl (Lane.entryDue now) (x.tickEnds now t) := by
  have hcount : (x.mapValves fun y => if y.closesAt t then x.toRecover now (x.endTickAtClose t) y else y).countValves
      (Valve.pendingClosesAt t) = x.countValves (Valve.pendingClosesAt t) := by
    rw [countValves_eq, mapValves_valves, Vector.toList_map, List.countP_map, countValves_eq]
    congr 1
    funext y
    simp only [Function.comp]
    split <;> rfl
  have hvalves : ((x.mapValves fun y => if y.closesAt t then x.toRecover now (x.endTickAtClose t) y else y).mapValves
      fun y => if y.pendingClosesAt t then { y with pending := none } else y).valves =
      (x.mapValves (x.valveAtTick now t)).valves := by
    rw [mapValves_valves, mapValves_valves, mapValves_valves, Vector.map_map]
    rfl
  unfold Lane.ejectorTick Lane.tickEnds
  dsimp only
  rw [hcount]
  simp only [Lane.countMissed]
  rw [hvalves, Lane.mapValves_same (x.mapValves _), Lane.mapValves_same x]

theorem valve_tickEnds (x : Lane) (now : Nat) (t : TickTime) (v : Fin 64) :
    (x.tickEnds now t).valve v = x.valveAtTick now t (x.valve v) := by
  have hmapped := valve_mapValves x (x.valveAtTick now t) v
  rw [← hmapped]
  rfl

theorem staysShut_valveAtTick (x : Lane) (now : Nat) (t : TickTime) {y : Valve} (h : y.pending = none) :
    y.StaysShut (x.valveAtTick now t y) := by
  unfold Lane.valveAtTick
  dsimp only
  split
  · rename_i hcloses
    rw [if_neg (by rw [pendingClosesAt_toRecover]; simp [Valve.pendingClosesAt, h])]
    exact ⟨h, fun _ => rfl, fun _ => rfl⟩
  · rw [if_neg (by simp [Valve.pendingClosesAt, h])]
    exact ⟨h, id, id⟩

theorem Lane.tame_tickEnds (x : Lane) (now : Nat) (t : TickTime) : x.Tame (x.tickEnds now t) where
  mode := rfl
  clock := rfl
  supply := rfl
  due := rfl
  objects := id
  assembly := id
  firings h := by simp [Lane.tickEnds, h]
  valves _ v hv := by
    rw [valve_tickEnds]
    exact staysShut_valveAtTick x now t hv

theorem Lane.tame_ejectorTick (x : Lane) (now : Nat) (t : TickTime) : x.Tame (x.ejectorTick now t) := by
  have hends := x.tame_tickEnds now t
  rw [ejectorTick_eq, foldl_entryDue_same]
  refine ⟨hends.mode, hends.clock, hends.supply, hends.due, hends.objects, hends.assembly, hends.firings, fun h v hv => ?_⟩
  have hvalves : ((x.firings.filter fun f => f.openTick == t).foldl (Lane.entryDue now) (x.tickEnds now t)).valves =
      (x.tickEnds now t).valves := by
    rcases h with h | h
    · simp [h]
    · exact foldl_entryDue_valves_of_low now _ h
  have hvalve := hends.valves h v hv
  simpa only [Lane.valve, hvalves] using hvalve

/-- In a lane without firings, pending entries and openings from a firing a tick changes nothing. -/
theorem ejectorTick_of_idle {x : Lane} (hfirings : x.firings = [])
    (hvalves : ∀ v, (x.valve v).pending = none ∧ (x.valve v).firingOpen = none) (now : Nat) (t : TickTime) :
    x.ejectorTick now t = x := by
  have hpending (v : Fin 64) : (x.valve v).pendingClosesAt t = false := by simp [Valve.pendingClosesAt, (hvalves v).1]
  have hcount : x.countValves (Valve.pendingClosesAt t) = 0 := countValves_eq_zero.2 hpending
  have hsame : x.valves.map (x.valveAtTick now t) = x.valves := by
    ext i hi
    have hv := hvalves ⟨i, hi⟩
    have hopen : (x.valve ⟨i, hi⟩).closesAt t = false := by simp [Valve.closesAt, hv.2]
    have hwait := hpending ⟨i, hi⟩
    simp only [Lane.valve, Fin.getElem_fin] at hopen hwait
    simp [Lane.valveAtTick, hopen, hwait]
  rw [ejectorTick_eq, hfirings]
  simp only [List.filter_nil, List.foldl_nil, Lane.tickEnds, mapValves_valves, hsame, hcount, hfirings, Counters.missed,
    BitVec.add_zero]
  rw [← hfirings]

/-- A tick of a lane, and the CMU's evaluation after it, keep the lane sound. -/
theorem Lane.Sound.tick {x : Lane} (hx : x.Sound) (now k : Nat) :
    ((({ x with clock := { x.clock with k := k } } : Lane).ejectorTick now (tickTime x.clock.ln k)).evaluated x.quiet
      0).Sound :=
  (tame_ejectorTick _ _ _).sound_evaluated 0 (hx.clock (c := { x.clock with k := k }) rfl)

end Sys2Proof.Machine

/-! ## Proofs: lines handed to the tracker, changes of a lane's mode, and the events of its valves, as the modes see them -/
namespace Sys2Proof.Machine

/-! ### Lines handed -/

/-- The counts that lines handed leave: lost writes, and those of the clock. -/
def Counters.outsideLines (c : Counters) : Word × Word × Word := (c.lostWrites, c.jitter, c.coastEpisodes)

/-- From `x` to `y` the lane has handed `n` lines to its tracker: lines processed has risen by `n`, no write is lost; without a line an empty table
stays empty and the firing queue stays. -/
structure Lane.Handed (n : Nat) (x y : Lane) : Prop where
  mode : y.mode = x.mode
  clock : y.clock = x.clock
  supply : y.supplyGood = x.supplyGood
  due : y.drainDue = x.drainDue
  processed : y.counters.linesProcessed = x.counters.linesProcessed + BitVec.ofNat 32 n
  outside : y.counters.outsideLines = x.counters.outsideLines
  opening : ∀ v, (y.valve v).opening.isSome = (x.valve v).opening.isSome
  pending : ∀ v, (y.valve v).pending.isSome = (x.valve v).pending.isSome
  quietly : n = 0 → (x.objects = [] → y.objects = []) ∧ y.firings = x.firings

namespace Lane.Handed

variable {x y z : Lane} {m n : Nat}

theorem refl (x : Lane) : x.Handed 0 x :=
  ⟨rfl, rfl, rfl, rfl, by simp, rfl, fun _ => rfl, fun _ => rfl, fun _ => ⟨id, rfl⟩⟩

theorem trans (h : x.Handed m y) (k : y.Handed n z) : x.Handed (m + n) z where
  mode := k.mode.trans h.mode
  clock := k.clock.trans h.clock
  supply := k.supply.trans h.supply
  due := k.due.trans h.due
  processed := by rw [k.processed, h.processed, BitVec.ofNat_add, BitVec.add_assoc]
  outside := k.outside.trans h.outside
  opening v := (k.opening v).trans (h.opening v)
  pending v := (k.pending v).trans (h.pending v)
  quietly hmn :=
    have hxy := h.quietly (by omega)
    have hyz := k.quietly (by omega)
    ⟨hyz.1 ∘ hxy.1, hyz.2.trans hxy.2⟩

theorem lost (h : x.Handed n y) : y.counters.lostWrites = x.counters.lostWrites := congrArg Prod.fst h.outside

theorem jitter (h : x.Handed n y) : y.counters.jitter = x.counters.jitter :=
  congrArg (fun c : Word × Word × Word => c.2.1) h.outside

theorem coastEpisodes (h : x.Handed n y) : y.counters.coastEpisodes = x.counters.coastEpisodes :=
  congrArg (fun c : Word × Word × Word => c.2.2) h.outside

theorem congr (h : x.Handed m y) (hmn : m = n) : x.Handed n y := hmn ▸ h

/-- Work that hands no line and leaves queue, valves and clock. -/
theorem of_same (hmode : y.mode = x.mode) (hclock : y.clock = x.clock) (hsupply : y.supplyGood = x.supplyGood)
    (hdue : y.drainDue = x.drainDue) (hprocessed : y.counters.linesProcessed = x.counters.linesProcessed)
    (houtside : y.counters.outsideLines = x.counters.outsideLines) (hvalves : y.valves = x.valves)
    (hobjects : x.objects = [] → y.objects = []) (hfirings : y.firings = x.firings) : x.Handed 0 y :=
  ⟨hmode, hclock, hsupply, hdue, by simp [hprocessed], houtside, fun v => by simp only [Lane.valve, hvalves],
    fun v => by simp only [Lane.valve, hvalves], fun _ => ⟨hobjects, hfirings⟩⟩

/-- The table that a line leaves is graded after the line has been counted. -/
theorem of_graded (hgraded : y.Graded z) (hmode : y.mode = x.mode) (hclock : y.clock = x.clock)
    (hsupply : y.supplyGood = x.supplyGood) (hdue : y.drainDue = x.drainDue) (hvalves : y.valves = x.valves)
    (hprocessed : y.counters.linesProcessed = x.counters.linesProcessed + 1)
    (houtside : y.counters.outsideLines = x.counters.outsideLines) : x.Handed 1 z where
  mode := by rw [hgraded.same]; exact hmode
  clock := by rw [hgraded.same]; exact hclock
  supply := by rw [hgraded.same]; exact hsupply
  due := by rw [hgraded.same]; exact hdue
  processed := by
    have hcounts := hgraded.counts
    unfold Counters.SameButGraded at hcounts
    rw [hcounts]
    exact hprocessed
  outside := by
    have hcounts := hgraded.counts
    unfold Counters.SameButGraded at hcounts
    rw [hcounts]
    exact houtside
  opening v := (hgraded.opening v).trans (by simp only [Lane.valve, hvalves])
  pending v := (hgraded.pending v).trans (by simp only [Lane.valve, hvalves])
  quietly h := absurd h one_ne_zero

theorem takeTable (x : Lane) (bank : Vector Word 1024) (l : LaneId) : x.Handed 0 (x.takeTable bank l) :=
  .of_same rfl rfl rfl rfl rfl rfl rfl (fun h => by simp [Lane.takeTable, Lane.markMixed, h]) rfl

theorem void (x : Lane) (l : LaneId) (skipped : Bool) :
    x.Handed 1 ((x.lineHanded.count fun c => c.voidLine skipped).voidLine l).1 :=
  .of_graded (graded_voidLine _ l) rfl rfl rfl rfl rfl rfl rfl

theorem data (x : Lane) (l : LaneId) (n : LineNo) (mixed : Bool) (cs : List PixelClass) :
    x.Handed 1 (x.lineHanded.dataLine l n mixed cs).1 := .of_graded (graded_dataLine _ l n mixed cs) rfl rfl rfl rfl rfl rfl rfl

theorem quiet (h : x.Handed 0 y) : y.quiet = x.quiet :=
  quiet_congr (by rw [(h.quietly rfl).2]) h.pending h.opening

/-- Handing fewer lines than the counter's range shows in the count. -/
theorem linesHanded_eq (h : x.Handed n y) (hn : n < 2 ^ 32) :
    linesHanded x.counters.linesProcessed y.counters.linesProcessed = n := by
  rw [linesHanded, h.processed, add_sub_cancel_left, BitVec.toNat_ofNat, Nat.mod_eq_of_lt hn]

/-- In RUN and DRAIN lines handed leave a sound lane once the drain condition has been evaluated. -/
theorem sound (h : x.Handed n y) (hn : n < 2 ^ 32) (hsorting : x.mode.sorting = true) (hx : x.Sound) :
    (y.evaluated x.quiet (linesHanded x.counters.linesProcessed y.counters.linesProcessed)).Sound := by
  rw [h.linesHanded_eq hn]
  have hmode {m : LaneMode} (hm : m.sorting = false) : y.mode ≠ m := by
    rw [h.mode]
    rintro rfl
    simp [hm] at hsorting
  refine sound_evaluated ?_ fun hdrain hzero hquiet hdue => ?_
  · exact
      { modes :=
          { off := fun hm => absurd hm (hmode rfl)
            hold := fun hm => absurd hm (hmode rfl)
            fault := fun hm => absurd hm (hmode rfl)
            sorting := fun _ => by rw [h.clock]; exact hx.modes.sorting hsorting
            due := nofun }
        supply := fun hlow => by
          obtain ⟨hshut, hpending⟩ := hx.supply (h.supply ▸ hlow)
          refine ⟨fun v => ?_, fun v => ?_⟩
          · show (y.valve v).opening = none
            simpa [hshut v] using h.opening v
          · show (y.valve v).pending = none
            simpa [hpending v] using h.pending v }
  · obtain ⟨hobjects, hquietBefore⟩ := hx.modes.due (h.mode ▸ hdrain) (h.due ▸ hdue)
    exact ⟨(h.quietly hzero).1 hobjects, hquiet.trans hquietBefore⟩

end Lane.Handed

/-! ### Changes of mode -/

/-- A cancelled valve waits for nothing and is shut (R99). -/
theorem cancelValve_shut (x : Lane) (now : Nat) (y : Valve) :
    (x.cancelValve now y).pending = none ∧ (x.cancelValve now y).opening = none := by
  refine ⟨rfl, ?_⟩
  unfold Lane.cancelValve Lane.endOpening
  split
  · rfl
  · rename_i hshut
    unfold Valve.unsetEndTick
    split <;> simp_all [Valve.opening]

/-- What a stop or a fault leaves of a lane: nothing tracked, nothing queued, every valve shut, the clock IDLE. -/
structure Lane.Stopped (x : Lane) : Prop where
  inert : x.Inert
  shut : x.AllShut
  idle : x.clock.state = .idle

theorem Lane.Stopped.sound {x : Lane} (h : x.Stopped) (hmode : x.mode = .off ∨ x.mode = .fault) : x.Sound where
  modes :=
    { off := fun _ => ⟨h.inert, h.idle⟩
      hold := fun hm => by simp [hm] at hmode
      fault := fun _ => ⟨h.inert, h.shut, h.idle⟩
      sorting := fun hm => by rcases hmode with hmode | hmode <;> simp [hmode, LaneMode.sorting] at hm
      due := fun hm => by simp [hm] at hmode }
  supply := fun _ => ⟨h.shut, fun v => (h.inert.valves v).1⟩

/-- A lane whose valves have been cancelled. -/
theorem stopped_of_cancelled {x y z : Lane} {now : Nat} (hvalves : y.valves = (x.mapValves (z.cancelValve now)).valves)
    (hobjects : y.objects = []) (hassembly : y.assembly = none) (hfirings : y.firings = [])
    (hidle : y.clock.state = .idle) : y.Stopped := by
  have hvalve (v : Fin 64) : y.valve v = z.cancelValve now (x.valve v) := by
    have hmapped := valve_mapValves x (z.cancelValve now) v
    rw [← hmapped]
    simp only [Lane.valve, hvalves]
  have hshut (v : Fin 64) := cancelValve_shut z now (x.valve v)
  exact
    { inert := ⟨hobjects, hassembly, hfirings, fun v => by
        rw [hvalve v]; exact ⟨(hshut v).1, firingOpen_of_opening (hshut v).2⟩⟩
      shut := fun v => by rw [hvalve v]; exact (hshut v).2
      idle := hidle }

/-- What `Lane.stopBlocks` leaves of a lane, in full (R17, R57, R99, R121). -/
theorem stopBlocks_eq (x : Lane) (l : LaneId) (now : Nat) (r : MissReason) :
    (x.stopBlocks l now r).1 =
      { x with
        assembly := none, objects := [], firings := [], valves := (x.mapValves (x.cancelValve now)).valves
        clock := x.clock.toIdle
        counters := ({ x.counters with
          objectsAbandoned := x.counters.objectsAbandoned + BitVec.ofNat 32 x.objects.length } : Counters).missed r
            (x.firings.length + x.countValves fun y => y.pending.isSome) } := by
  have hsame := Lane.mapValves_same (x.discardAssembly.abandonObjects) (x.cancelValve now)
  have hvalves : (x.discardAssembly.abandonObjects.mapValves (x.cancelValve now)).valves =
      (x.mapValves (x.cancelValve now)).valves := by
    rw [mapValves_valves, mapValves_valves]
    rfl
  have hcancel : x.discardAssembly.abandonObjects.cancelValve now = x.cancelValve now := rfl
  unfold Lane.stopBlocks Lane.cancelFirings
  dsimp only
  rw [hcancel, hsame, hvalves]
  rfl

theorem stopBlocks_stopped (x : Lane) (l : LaneId) (now : Nat) (r : MissReason) : (x.stopBlocks l now r).1.Stopped :=
  stopped_of_cancelled (by rw [stopBlocks_eq]) (by rw [stopBlocks_eq]) (by rw [stopBlocks_eq]) (by rw [stopBlocks_eq])
    (by rw [stopBlocks_eq]; rfl)

namespace Lane.Sound

variable {x : Lane}

/-- LANE_START of a lane in OFF (R148). -/
theorem started (hx : x.Sound) (e : LineNo) (a b : Nat) :
    ({ x with
      mode := .run, drainDue := false, assembly := none, expected := e, clock := x.clock.seed a b
      drainCount := 0 } : Lane).Sound where
  modes := ⟨nofun, nofun, nofun, fun _ => .inl rfl, nofun⟩
  supply := hx.supply

/-- LANE_HOLD of a lane in RUN (R149). -/
theorem toDrain (hx : x.Sound) (hrun : x.mode = .run) :
    ({ x with mode := .drain, drainDue := false, drainCount := 0 } : Lane).Sound where
  modes := ⟨nofun, nofun, nofun, fun _ => hx.modes.sorting (by simp [hrun, LaneMode.sorting]), nofun⟩
  supply := hx.supply

/-- LANE_RESUME of a lane in HOLD or DRAIN (R150). -/
theorem toRun (hx : x.Sound) (hmode : x.mode = .hold ∨ x.mode = .drain) :
    ({ x with mode := .run, drainDue := false } : Lane).Sound where
  modes := by
    refine ⟨nofun, nofun, nofun, fun _ => ?_, nofun⟩
    rcases hmode with hmode | hmode
    · exact (hx.modes.hold hmode).2
    · exact hx.modes.sorting (by simp [hmode, LaneMode.sorting])
  supply := hx.supply

/-- A lane found drained enters HOLD with nothing left in it (R156). -/
theorem toHold (hx : x.Sound) (hdrain : x.mode = .drain) (hdue : x.drainDue = true) :
    ({ x with mode := .hold, drainDue := false, assembly := none } : Lane).Sound where
  modes := by
    obtain ⟨hobjects, hquiet⟩ := hx.modes.due hdrain hdue
    obtain ⟨hfirings, hpending, hopening⟩ := quiet_iff.1 hquiet
    refine ⟨nofun, fun _ => ⟨⟨hobjects, rfl, hfirings, fun v => ?_⟩, ?_⟩, nofun, nofun, nofun⟩
    · exact ⟨hpending v, firingOpen_of_opening (hopening v)⟩
    · exact hx.modes.sorting (by simp [hdrain, LaneMode.sorting])
  supply := hx.supply

/-- A test opens a valve in OFF or HOLD with the supply good, and it is no opening from a firing (R102). -/
theorem startTest (hx : x.Sound) (hmode : x.mode = .off ∨ x.mode = .hold) (hsupply : x.supplyGood = true) (now : Nat)
    (v : Fin 64) (d : Nat) : (x.startTest now v d).Sound := by
  have hinert (hi : x.Inert) : (x.startTest now v d).Inert := by
    refine ⟨hi.objects, hi.assembly, hi.firings, fun w => ?_⟩
    by_cases h : w = v
    · rw [h, Lane.startTest, valve_setValve_self]
      exact ⟨rfl, rfl⟩
    · rw [Lane.startTest, valve_setValve_ne _ _ h]
      exact hi.valves w
  have hnot {m : LaneMode} (hoff : m ≠ .off) (hhold : m ≠ .hold) : x.mode ≠ m := by
    rintro rfl
    exact hmode.elim hoff hhold
  exact
    { modes :=
        { off := fun hm => have ⟨hi, hc⟩ := hx.modes.off hm; ⟨hinert hi, hc⟩
          hold := fun hm => have ⟨hi, hc⟩ := hx.modes.hold hm; ⟨hinert hi, hc⟩
          fault := fun hm => absurd hm (hnot nofun nofun)
          sorting := hx.modes.sorting
          due := fun hm => absurd hm (hnot nofun nofun) }
      supply := fun hlow => by
        have : x.supplyGood = false := hlow
        simp [hsupply] at this }

/-! ### Valves and supply -/

/-- The supply is high again: no valve changes (R97). -/
theorem supplyHigh (hx : x.Sound) (n : Nat) : ({ x with supplyGood := true, episodeMissed := n } : Lane).Sound where
  modes :=
    { off := fun hm => have ⟨hi, hc⟩ := hx.modes.off hm; ⟨⟨hi.objects, hi.assembly, hi.firings, hi.valves⟩, hc⟩
      hold := fun hm => have ⟨hi, hc⟩ := hx.modes.hold hm; ⟨⟨hi.objects, hi.assembly, hi.firings, hi.valves⟩, hc⟩
      fault := fun hm =>
        have ⟨hi, hs, hc⟩ := hx.modes.fault hm
        ⟨⟨hi.objects, hi.assembly, hi.firings, hi.valves⟩, hs, hc⟩
      sorting := hx.modes.sorting
      due := hx.modes.due }
  supply := nofun

/-- A lane whose valves are all shut and wait for nothing stays sound when its supply goes low (R95, R98). -/
theorem supplyLow (hx : x.Sound) (hshut : x.AllShut) (hpending : ∀ v, (x.valve v).pending = none) (n : Nat) :
    ({ x with supplyGood := false, episodeMissed := n } : Lane).Sound where
  modes :=
    { off := fun hm => have ⟨hi, hc⟩ := hx.modes.off hm; ⟨⟨hi.objects, hi.assembly, hi.firings, hi.valves⟩, hc⟩
      hold := fun hm => have ⟨hi, hc⟩ := hx.modes.hold hm; ⟨⟨hi.objects, hi.assembly, hi.firings, hi.valves⟩, hc⟩
      fault := fun hm =>
        have ⟨hi, hs, hc⟩ := hx.modes.fault hm
        ⟨⟨hi.objects, hi.assembly, hi.firings, hi.valves⟩, hs, hc⟩
      sorting := hx.modes.sorting
      due := hx.modes.due }
  supply := fun _ => ⟨hshut, hpending⟩

end Lane.Sound

/-- Work on one valve that leaves it waiting for nothing where it did, and opens it by nothing. -/
theorem tame_setValve {x : Lane} {v : Fin 64} {y : Valve}
    (h : (x.valve v).pending = none → (x.valve v).StaysShut y) : x.Tame (x.setValve v y) where
  mode := rfl
  clock := rfl
  supply := rfl
  due := rfl
  objects := id
  assembly := id
  firings := id
  valves _ w hw := by
    by_cases hv : w = v
    · subst hv
      rw [valve_setValve_self]
      exact h hw
    · rw [valve_setValve_ne _ _ hv]
      exact ⟨hw, id, id⟩

theorem tame_boostExpires (x : Lane) (now : Nat) (v : Fin 64) : x.Tame (x.boostExpires now v) := by
  unfold Lane.boostExpires
  dsimp only
  split
  · rename_i hphase
    split
    · exact tame_setValve fun h =>
        ⟨h, fun hf => by simpa [Valve.firingOpen, Valve.opening, hphase] using hf, fun ho => by simp [Valve.opening, hphase] at ho⟩
    · exact .refl x
  all_goals exact .refl x

theorem tame_carrierTurns (x : Lane) (now : Nat) (v : Fin 64) : x.Tame (x.carrierTurns now v) := by
  unfold Lane.carrierTurns
  dsimp only
  split
  · rename_i hphase
    split
    · exact tame_setValve fun h =>
        ⟨h, fun hf => by simpa [Valve.firingOpen, Valve.opening, hphase] using hf, fun ho => by simp [Valve.opening, hphase] at ho⟩
    · split
      · exact tame_setValve fun h =>
          ⟨h, fun hf => by simpa [Valve.firingOpen, Valve.opening, hphase] using hf,
            fun ho => by simp [Valve.opening, hphase] at ho⟩
      · exact .refl x
  all_goals exact .refl x

theorem staysShut_toRecover (x : Lane) (now : Nat) (e : Option TickTime) {y : Valve} (h : y.pending = none) :
    y.StaysShut (x.toRecover now e y) := ⟨h, fun _ => rfl, fun _ => rfl⟩

theorem tame_counters (x : Lane) (c : Counters) : x.Tame { x with counters := c } :=
  .of_same rfl rfl rfl rfl id id rfl rfl

theorem tame_guardTrips (x : Lane) (l : LaneId) (now : Nat) (v : Fin 64) : x.Tame (x.guardTrips l now v).1 := by
  unfold Lane.guardTrips
  split
  · split
    · exact (tame_counters x _).trans (tame_setValve fun h => staysShut_toRecover _ _ _ h)
    · exact .refl x
  · exact .refl x

theorem tame_testEnds (x : Lane) (now : Nat) (v : Fin 64) : x.Tame (x.testEnds now v) := by
  unfold Lane.testEnds
  dsimp only
  split
  · split
    · split
      · exact tame_setValve fun h => staysShut_toRecover _ _ _ h
      · exact .refl x
    · exact .refl x
  · exact .refl x

/-- A recovery ends: the valve is CLOSED, or opens for the entry that waits. -/
theorem tame_recoveryEnds (x : Lane) (now : Nat) (v : Fin 64) : x.Tame (x.recoveryEnds now v) := by
  unfold Lane.recoveryEnds
  dsimp only
  split
  · split
    · split
      · rename_i hpending
        exact (tame_counters x _).trans (tame_setValve fun h => by rw [show (x.valve v).pending = none from h] at hpending; cases hpending)
      · exact tame_setValve fun h => ⟨h, fun _ => rfl, fun _ => rfl⟩
    · exact .refl x
  all_goals exact .refl x

end Sys2Proof.Machine

/-! ## Proofs: the walk that keeps the promises of the lane modes (O57)

Each operation is shown to keep `State.ModeSound`. What an operation does to its lane stands in the modules before; here the
lanes are put together, and the promise about a reset is carried along: under reset the lanes are OFF and shut, and such lanes do
not act. -/
namespace Sys2Proof.Machine

theorem State.ModeSound.sound {s : State} (h : s.ModeSound) (l : LaneId) : (s.lane l).Sound := ⟨h.modes l, h.supply l⟩

/-- Work that leaves both lanes. -/
theorem State.ModeSound.of_lanes {s t : State} (h : s.ModeSound) (hlanes : ∀ l, t.lane l = s.lane l)
    (hslot : s.inReset = true → t.cmu.slot = s.cmu.slot) (hreset : t.inReset = true → s.inReset = true) : t.ModeSound where
  modes l := hlanes l ▸ h.modes l
  supply l := hlanes l ▸ h.supply l
  reset hr := by
    obtain ⟨hnone, hoff⟩ := h.reset (hreset hr)
    exact ⟨(hslot (hreset hr)).trans hnone, fun l => hlanes l ▸ hoff l⟩

/-- Work on one lane. -/
theorem State.ModeSound.of_lane {s t : State} {l : LaneId} (h : s.ModeSound) (hwork : s.Worked {l} t) (hpath : s.SamePath t)
    (hlane : (t.lane l).Sound)
    (hreset : (s.lane l).mode = .off → (s.lane l).AllShut → (t.lane l).mode = .off ∧ (t.lane l).AllShut) : t.ModeSound := by
  have hsound (m : LaneId) : (t.lane m).Sound := by
    by_cases hm : m = l
    · exact hm ▸ hlane
    · exact hwork.other m hm ▸ h.sound m
  refine ⟨fun m => (hsound m).modes, fun m => (hsound m).supply, fun hr => ?_⟩
  rw [hpath.inReset] at hr
  obtain ⟨hnone, hoff⟩ := h.reset hr
  refine ⟨hwork.slot.trans hnone, fun m => ?_⟩
  by_cases hm : m = l
  · exact hm ▸ hreset (hoff l).1 (hoff l).2
  · exact hwork.other m hm ▸ hoff m

/-- A lane in OFF stays OFF and shut through tame work. -/
theorem Lane.Tame.off_shut {x y : Lane} (h : x.Tame y) (hx : x.Sound) (hoff : x.mode = .off) (hshut : x.AllShut) :
    y.mode = .off ∧ y.AllShut := ⟨h.mode.trans hoff, h.allShut_of_inert (hx.modes.off hoff).1 hshut⟩

theorem evaluated_off_shut {x : Lane} {q : Bool} {n : Nat} (h : x.mode = .off ∧ x.AllShut) :
    (x.evaluated q n).mode = .off ∧ (x.evaluated q n).AllShut := by
  rw [evaluated_same]
  exact h

/-- Work that is no lane's. -/
theorem modeSound_of_worked_empty {s t : State} (h : s.ModeSound) (hwork : s.Worked ∅ t) (hpath : s.SamePath t) :
    t.ModeSound := h.of_lanes (fun l => hwork.other l (Set.notMem_empty l)) (fun _ => hwork.slot) fun hr => hpath.inReset ▸ hr

/-! ### Swaps, evaluations, mode changes -/

theorem completeCommand_lane (s : State) (c : CommandStatus) (d : Word) (l : LaneId) :
    (s.completeCommand c d).lane l = s.lane l := (worked_completeCommand (L := ∅) s c d).other l (Set.notMem_empty l)

theorem endCommit_lane (s : State) (c : CommandStatus) (d : Word) (l : LaneId) : (s.endCommit c d).lane l = s.lane l :=
  (worked_endCommit (L := ∅) s c d).other l (Set.notMem_empty l)

/-- What a swap leaves of its lane: the staged table if it waits, else the lane as it was (R135). -/
theorem swapLane_lane (s : State) (l : LaneId) :
    (s.swapLane l).lane l = if s.swapWaiting l = true then (s.lane l).takeTable s.rtu.staged l else s.lane l := by
  cases hw : s.swapWaiting l with
  | false => rw [swapLane_of_not_waiting hw]; rfl
  | true =>
    unfold State.swapWaiting at hw
    split at hw
    · cases hw
    · cases hw
    · rename_i mask swapped hcommit
      rw [swapLane_of_waiting hcommit (by simpa [State.swapWaiting, hcommit] using hw), if_pos rfl]
      split
      · rw [endCommit_lane, lane_modLane_self]
      · cases l <;> rfl

theorem swapLane_cases (s : State) (l : LaneId) :
    (s.swapLane l).lane l = s.lane l ∨ (s.swapLane l).lane l = (s.lane l).takeTable s.rtu.staged l := by
  rw [swapLane_lane]
  split
  · exact .inr rfl
  · exact .inl rfl

theorem modeSound_swapLane {s : State} (h : s.ModeSound) (l : LaneId) : (s.swapLane l).ModeSound := by
  refine h.of_lane (worked_swapLane s (Set.mem_singleton l)) (samePath_swapLane s l) ?_ fun hoff hshut => ?_
  · rcases swapLane_cases s l with hlane | hlane <;> rw [hlane]
    · exact h.sound l
    · exact (h.sound l).takeTable _ l
  · rcases swapLane_cases s l with hlane | hlane <;> rw [hlane]
    · exact ⟨hoff, hshut⟩
    · exact ⟨hoff, hshut⟩

theorem modeSound_settleSwap {s : State} (h : s.ModeSound) (l : LaneId) : (s.settleSwap l).ModeSound := by
  unfold State.settleSwap
  split
  · exact h
  · exact modeSound_swapLane h l

theorem modeSound_settleCapture {s : State} (h : s.ModeSound) : s.settleCapture.ModeSound :=
  modeSound_of_worked_empty h (worked_settleCapture s) (samePath_settleCapture s)

theorem takeSnapshot_lane (s : State) (l m : LaneId) (c : SnapshotCause) : (s.takeSnapshot l c).lane m = s.lane m := by
  cases m <;> rfl

theorem captureIfWaiting_lane (s : State) (l m : LaneId) : (s.captureIfWaiting l).lane m = s.lane m :=
  (worked_captureIfWaiting (L := ∅) s l).other m (Set.notMem_empty m)

/-- A mode change writes the mode and forgets what was found of the drain condition (R158). -/
theorem setMode_lane (s : State) (l : LaneId) (m : LaneMode) (c : ModeCause) (q : BitVec 16) :
    (s.setMode l m c q).lane l = { s.lane l with mode := m, drainDue := false } := by
  simp [State.setMode]

theorem enterHold_lane (s : State) (l : LaneId) :
    (s.enterHold l).lane l = { s.lane l with mode := .hold, drainDue := false, assembly := none } := by
  simp [State.enterHold, takeSnapshot_lane, setMode_lane, captureIfWaiting_lane, Lane.discardAssembly]

theorem settleDrain_lane (s : State) (l : LaneId) :
    (s.settleDrain l).lane l =
      if (s.lane l).mode = .drain ∧ (s.lane l).drainDue = true then
        { s.lane l with mode := .hold, drainDue := false, assembly := none }
      else s.lane l := by
  unfold State.settleDrain
  split
  · exact enterHold_lane s l
  · rfl

theorem modeSound_settleDrain {s : State} (h : s.ModeSound) (l : LaneId) : (s.settleDrain l).ModeSound := by
  refine h.of_lane (worked_settleDrain s (Set.mem_singleton l)) (samePath_settleDrain s l) ?_ fun hoff hshut => ?_
  · rw [settleDrain_lane]
    split
    · rename_i hdue
      exact (h.sound l).toHold hdue.1 hdue.2
    · exact h.sound l
  · rw [settleDrain_lane, if_neg (by simp [hoff])]
    exact ⟨hoff, hshut⟩

/-! ### Commands -/

/-- Outside reset work on lanes that leaves them sound. -/
theorem State.ModeSound.of_running {s t : State} (h : s.ModeSound) (hrun : s.inReset = false) {l : LaneId}
    (hwork : s.Worked {l} t) (hpath : s.SamePath t) (hlane : (t.lane l).Sound) : t.ModeSound := by
  refine ⟨fun m => ?_, fun m => ?_, fun hr => by simp [hpath.inReset, hrun] at hr⟩
  all_goals
    by_cases hm : m = l
    · subst hm
      first | exact hlane.modes | exact hlane.supply
    · rw [hwork.other m hm]
      first | exact h.modes m | exact h.supply m

theorem modeSound_record {s : State} (h : s.ModeSound) (r : Record) : (s.record r).ModeSound :=
  modeSound_of_worked_empty h (worked_record s r) (samePath_record s r)

theorem modeSound_withLane {s : State} (h : s.ModeSound) {r : CommandRecord} {f : LaneId → State}
    (hf : ∀ l, (f l).ModeSound) : (s.withLane r f).ModeSound := by
  unfold State.withLane
  split
  · exact hf _
  · exact modeSound_record h _

theorem startLane_lane (s : State) (l : LaneId) (a b : Nat) (q : BitVec 16) :
    (s.startLane l a b q).lane l =
      { s.lane l with
        mode := .run, drainDue := false, assembly := none, expected := BitVec.ofNat 32 a
        clock := (s.lane l).clock.seed a b, drainCount := 0 } := by
  simp [State.startLane, takeSnapshot_lane, setMode_lane]

theorem holdLane_lane (s : State) (l : LaneId) (q : BitVec 16) :
    (s.holdLane l q).lane l = { s.lane l with mode := .drain, drainDue := false, drainCount := 0 } := by
  simp [State.holdLane, takeSnapshot_lane, setMode_lane]

theorem resumeLane_lane (s : State) (l : LaneId) (q : BitVec 16) :
    (s.resumeLane l q).lane l = { s.lane l with mode := .run, drainDue := false } := by
  simp [State.resumeLane, takeSnapshot_lane, setMode_lane]

theorem stopLane_lane (s : State) (l : LaneId) (q : BitVec 16) :
    (s.stopLane l q).lane l =
      (({ s.lane l with mode := .off, drainDue := false } : Lane).stopBlocks l s.now .stopped).1 := by
  simp only [State.stopLane, takeSnapshot_lane, setMode_lane, apply_lane_self, (samePath_setMode s l _ _ _).now]

theorem faultLane_lane (s : State) (l : LaneId) :
    (s.faultLane l).lane l =
      (({ s.lane l with mode := .fault, drainDue := false } : Lane).stopBlocks l s.now .clockLost).1 := by
  simp only [State.faultLane, takeSnapshot_lane, setMode_lane, captureIfWaiting_lane, apply_lane_self,
    (samePath_setMode _ l _ _ _).now, (samePath_captureIfWaiting s l).now]

theorem stopBlocks_mode (x : Lane) (l : LaneId) (now : Nat) (r : MissReason) : (x.stopBlocks l now r).1.mode = x.mode := by
  rw [stopBlocks_eq]

/-- What an accepted test has found of its lane (R102). -/
theorem judgeTest_ok {x : Lane} {v : Fin 64} {d e : Nat} (hok : x.judgeTest v d = (.ok, e)) :
    (x.mode = .off ∨ x.mode = .hold) ∧ x.supplyGood = true ∧ (x.valve v).phase = .closed ∧ (x.valve v).pending = none := by
  unfold Lane.judgeTest at hok
  split at hok
  · cases hok
  · rename_i hmode
    split at hok
    · cases hok
    · split at hok
      · cases hok
      · rename_i hsupply
        split at hok
        · rename_i hclosed
          exact ⟨by tauto, by simpa using hsupply, hclosed⟩
        · cases hok

theorem modeSound_clearLane {s : State} (h : s.ModeSound) (l : LaneId) :
    (s.modLane l fun x => { x with counters := {} }).ModeSound := by
  refine h.of_lane (worked_modLane (Set.mem_singleton l) (Lane.kept_clearCounters _)) (samePath_modLane _ _ _) ?_ ?_ <;>
    rw [lane_modLane_self]
  · exact (h.sound l).counters {}
  · exact fun hoff hshut => ⟨hoff, hshut⟩

theorem modeSound_commandStats {s : State} (h : s.ModeSound) (r : CommandRecord) : (s.commandStats r).ModeSound := by
  unfold State.commandStats
  split
  · exact modeSound_record h _
  · have howed : (((((s.execute r).commonWaits.takeSnapshot .lane0 .command).takeSnapshot .lane1 .command).owe
        .lane0).owe .lane1).ModeSound :=
      modeSound_of_worked_empty h
        (((((worked_execute s r).trans (worked_commonWaits _)).trans (worked_takeSnapshot _ _ _)).trans
          (worked_takeSnapshot _ _ _)).trans (worked_owe _ _) |>.trans (worked_owe _ _))
        (((((samePath_setCmu s _).trans (samePath_commonWaits _)).trans (samePath_takeSnapshot _ _ _)).trans
          (samePath_takeSnapshot _ _ _)).trans (samePath_setRwu _ _) |>.trans (samePath_setRwu _ _))
    dsimp only
    split
    · exact modeSound_clearLane (modeSound_clearLane howed .lane0) .lane1
    · exact howed

section
variable {s : State} (h : s.ModeSound) (hrun : s.inReset = false) (r : CommandRecord)
include h hrun

theorem modeSound_commandStart : (s.commandStart r).ModeSound := by
  refine modeSound_withLane h fun l => ?_
  repeat' split
  all_goals first | exact modeSound_record h _ | skip
  refine modeSound_record (h.of_running hrun (worked_startLane s (Set.mem_singleton l) _ _ _) (samePath_startLane s l _ _ _) ?_) _
  rw [startLane_lane]
  exact (h.sound l).started _ _ _

theorem modeSound_commandHold : (s.commandHold r).ModeSound := by
  refine modeSound_withLane h fun l => ?_
  split
  · rename_i hmode
    refine modeSound_record (h.of_running hrun (worked_holdLane s (Set.mem_singleton l) _) (samePath_holdLane s l _) ?_) _
    rw [holdLane_lane]
    exact (h.sound l).toDrain hmode
  all_goals exact modeSound_record h _

theorem modeSound_resumeLane (l : LaneId) (hmode : (s.lane l).mode = .hold ∨ (s.lane l).mode = .drain) (q : BitVec 16) :
    (s.resumeLane l q).ModeSound := by
  refine h.of_running hrun (worked_resumeLane s (Set.mem_singleton l) _) (samePath_resumeLane s l _) ?_
  rw [resumeLane_lane]
  exact (h.sound l).toRun hmode

theorem modeSound_commandResume : (s.commandResume r).ModeSound := by
  refine modeSound_withLane h fun l => ?_
  split
  · rename_i hmode
    exact modeSound_record (modeSound_resumeLane h hrun l (.inl hmode) _) _
  · rename_i hmode
    exact modeSound_record (modeSound_resumeLane h hrun l (.inr hmode) _) _
  all_goals exact modeSound_record h _

theorem modeSound_commandStop : (s.commandStop r).ModeSound := by
  refine modeSound_withLane h fun l => ?_
  split
  · exact modeSound_record h _
  · refine modeSound_record (h.of_running hrun (worked_stopLane s (Set.mem_singleton l) _) (samePath_stopLane s l _) ?_) _
    rw [stopLane_lane]
    exact (stopBlocks_stopped _ _ _ _).sound (.inl (stopBlocks_mode _ _ _ _))

theorem modeSound_commandTest : (s.commandTest r).ModeSound := by
  refine modeSound_withLane h fun l => ?_
  dsimp only
  split
  · split
    · exact modeSound_record h _
    · split
      · rename_i hok
        obtain ⟨hmode, hsupply, -⟩ := judgeTest_ok hok
        refine modeSound_record (h.of_running hrun (worked_modLane (Set.mem_singleton l) (Lane.kept_startTest _ _ _ _))
          (samePath_modLane _ _ _) ?_) _
        rw [lane_modLane_self]
        exact (h.sound l).startTest hmode hsupply _ _ _
      · exact modeSound_record h _
  · exact modeSound_record h _

theorem modeSound_executeCommand : (s.executeCommand r).ModeSound := by
  have hcommit : (s.commandCommit r).ModeSound := by
    unfold State.commandCommit
    split
    · exact modeSound_record h _
    · exact h.of_lanes (fun l => by cases l <;> rfl) (fun _ => rfl) id
  have hcapture : (s.commandCapture r).ModeSound := by
    refine modeSound_withLane h fun l => ?_
    exact modeSound_of_worked_empty h ((worked_execute s r).trans (worked_beginCapture _ l))
      ((samePath_setCmu s _).trans (samePath_beginCapture _ l))
  unfold State.executeCommand
  repeat' split
  · exact modeSound_commandStart h hrun r
  · exact modeSound_commandHold h hrun r
  · exact modeSound_commandResume h hrun r
  · exact modeSound_commandStop h hrun r
  · exact hcommit
  · exact modeSound_commandTest h hrun r
  · exact modeSound_commandStats h r
  · exact hcapture
  · exact modeSound_record h _

end

theorem modeSound_finishCommands {s : State} (h : s.ModeSound) : s.finishCommands.ModeSound := by
  unfold State.finishCommands
  split
  · rename_i r _ hslot
    have hrun : s.inReset = false := by
      by_contra hr
      have := (h.reset (by simpa using hr)).1
      simp [hslot] at this
    have hsettled := modeSound_settleDrain (modeSound_settleDrain h .lane0) .lane1
    have hpath := (samePath_settleDrain s .lane0).trans (samePath_settleDrain (s.settleDrain .lane0) .lane1)
    have hrun' := hpath.inReset.trans hrun
    have hfree : ({ (s.settleDrain .lane0).settleDrain .lane1 with
        cmu := { ((s.settleDrain .lane0).settleDrain .lane1).cmu with slot := none } } : State).ModeSound :=
      hsettled.of_lanes (fun l => by cases l <;> rfl) (fun hr => by simp [hrun'] at hr) id
    exact modeSound_executeCommand hfree hrun' r
  · exact h

theorem modeSound_settle {s : State} (h : s.ModeSound) : s.settle.ModeSound :=
  modeSound_finishCommands (modeSound_settleSwap (modeSound_settleSwap (modeSound_settleDrain (modeSound_settleDrain
    (modeSound_settleCapture h) .lane0) .lane1) .lane0) .lane1)

theorem modeSound_pass {s : State} (h : s.ModeSound) (n : Nat) : (s.pass n).ModeSound :=
  h.of_lanes (fun l => by cases l <;> rfl) (fun _ => rfl) id

theorem modeSound_begin {s : State} (h : s.ModeSound) (n : Nat) : (s.begin n).ModeSound :=
  modeSound_pass (modeSound_settle h) n

end Sys2Proof.Machine

/-! ## Proofs: intake, clock, valves and resets keep the promises of the lane modes (O57, first part) -/
namespace Sys2Proof.Machine

/-! ### Lines handed by the intake -/

theorem handed_setLane_same {s : State} {l : LaneId} {n : Nat} {x : Lane} (h : (s.lane l).Handed n x) :
    (s.lane l).Handed n ((s.setLane l x).lane l) := by rwa [lane_setLane_self]

theorem handed_swapLane (s : State) (l : LaneId) : (s.lane l).Handed 0 ((s.swapLane l).lane l) := by
  rcases swapLane_cases s l with h | h <;> rw [h]
  · exact .refl _
  · exact .takeTable _ _ l

theorem damageLine_lane (s : State) (l : LaneId) (a : Assembly) (r : LineFaultReason) :
    (s.damageLine l a r).lane l = (s.lane l).damaged := by simp [State.damageLine]

theorem handed_damageLine (s : State) (l : LaneId) (a : Assembly) (r : LineFaultReason) :
    (s.lane l).Handed 0 ((s.damageLine l a r).lane l) := by
  rw [damageLine_lane]
  exact .of_same rfl rfl rfl rfl rfl rfl rfl id rfl

theorem handVoid_lane (s : State) (l : LaneId) (skipped : Bool) :
    (s.handVoid l skipped).lane l =
      ((((s.swapLane l).lane l).lineHanded.count fun c => c.voidLine skipped).voidLine l).1 := by
  simp [State.handVoid]

theorem handed_handVoid (s : State) (l : LaneId) (skipped : Bool) : (s.lane l).Handed 1 ((s.handVoid l skipped).lane l) := by
  rw [handVoid_lane]
  exact (handed_swapLane s l).trans (.void _ l skipped)

theorem handed_handSkipped (s : State) (l : LaneId) (n : Nat) : (s.lane l).Handed n ((s.handSkipped l n).lane l) := by
  induction n generalizing s with
  | zero => exact .refl _
  | succ n ih =>
    have hall := (handed_handVoid s l true).trans (ih _)
    rwa [Nat.add_comm 1 n] at hall

theorem setExpected_lane (s : State) (l : LaneId) (e : LineNo) :
    (s.setExpected l e).lane l = { s.lane l with expected := e } := by simp [State.setExpected]

theorem handed_setExpected (s : State) (l : LaneId) (e : LineNo) : (s.lane l).Handed 0 ((s.setExpected l e).lane l) := by
  rw [setExpected_lane]
  exact .of_same rfl rfl rfl rfl rfl rfl rfl id rfl

theorem handData_lane (s : State) (l : LaneId) (n : LineNo) (mixed : Bool) (cs : List PixelClass) :
    (s.handData l n mixed cs).lane l = ((s.lane l).lineHanded.dataLine l n mixed cs).1 := by simp [State.handData]

theorem handed_handData (s : State) (l : LaneId) (n : LineNo) (mixed : Bool) (cs : List PixelClass) :
    (s.lane l).Handed 1 ((s.handData l n mixed cs).lane l) := by
  rw [handData_lane]
  exact .data _ l n mixed cs

/-- A modification of the lane that hands nothing. -/
theorem handed_modLane {s : State} {l : LaneId} {f : Lane → Lane} (h : (s.lane l).Handed 0 (f (s.lane l))) :
    (s.lane l).Handed 0 ((s.modLane l f).lane l) := by rwa [lane_modLane_self]

/-- A line number's distance lies below half of the counter's range. -/
theorem lineDiff_lt (a b : LineNo) : (lineDiff a b).toNat < 2 ^ 31 := by
  have := BitVec.toInt_lt (x := a - b)
  unfold lineDiff
  omega

/-- A finished line is handed behind the skipped ones. -/
theorem handed_finishLine (s : State) (l : LaneId) (a : Assembly) (d : Word) :
    (s.lane l).Handed ((lineDiff a.line (s.lane l).expected).toNat + 1) ((s.finishLine l a d).lane l) := by
  unfold State.finishLine
  dsimp only
  split
  · exact .congr ((((handed_damageLine s l a _).trans (handed_handSkipped _ l _)).trans (handed_handVoid _ l false)).trans
      (handed_setExpected _ l (a.line + 1))) (by omega)
  · have hdiscard : (s.lane l).Handed 0 ((s.modLane l Lane.discardAssembly).lane l) :=
      handed_modLane (.of_same rfl rfl rfl rfl rfl rfl rfl id rfl)
    exact .congr (((hdiscard.trans (handed_handSkipped _ l _)).trans (handed_handData _ l _ _ _)).trans
      (handed_setExpected _ l (a.line + 1))) (by omega)

theorem handed_stray (s : State) (l : LaneId) : (s.lane l).Handed 0 ((s.modLane l Lane.stray).lane l) :=
  handed_modLane (.of_same rfl rfl rfl rfl rfl rfl rfl id rfl)

theorem handed_judgedHeader {s : State} {l : LaneId} {p : BitVec 4} {h : BitVec 16} {f : LineNo → State}
    (hf : ∀ n, (s.lane l).Handed 0 ((f n).lane l)) : (s.lane l).Handed 0 ((s.judgedHeader l p h f).lane l) := by
  unfold State.judgedHeader
  split
  · rw [State.headerAhead, record_lane, lane_modLane_self]
    exact .of_same rfl rfl rfl rfl rfl rfl rfl id rfl
  · rw [State.headerStale, record_lane, lane_modLane_self]
    exact .of_same rfl rfl rfl rfl rfl rfl rfl id rfl
  · exact hf _

theorem handed_sortingHeader (s : State) (l : LaneId) (p : BitVec 4) (h : BitVec 16) :
    (s.lane l).Handed 0 ((s.sortingHeader l p h).lane l) := by
  have hjudged (t : State) :
      (t.lane l).Handed 0 ((t.judgedHeader l p h fun n => (t.swapLane l).modLane l fun x => x.openLine p h n).lane l) :=
    handed_judgedHeader fun n => (handed_swapLane t l).trans (handed_modLane (.of_same rfl rfl rfl rfl rfl rfl rfl id rfl))
  unfold State.sortingHeader
  dsimp only
  split
  · exact (handed_damageLine s l _ _).trans (hjudged _)
  · exact hjudged s

theorem handed_pixel {x y : Lane} (h : y = x.stray ∨ ∃ a, y = { x with assembly := some a }) : x.Handed 0 y := by
  rcases h with rfl | ⟨a, rfl⟩ <;> exact .of_same rfl rfl rfl rfl rfl rfl rfl id rfl

theorem frontPixel_cases (x : Lane) (p : BitVec 4) (c : Nat) (d : Word) :
    x.frontPixel p c d = x.stray ∨ ∃ a, x.frontPixel p c d = { x with assembly := some a } := by
  unfold Lane.frontPixel
  split
  · split
    · exact .inr ⟨_, rfl⟩
    · exact .inl rfl
  · exact .inl rfl

theorem rearPixel_cases (x : Lane) (p : BitVec 4) (c : Nat) (d : Word) :
    x.rearPixel p c d = x.stray ∨ ∃ a, x.rearPixel p c d = { x with assembly := some a } := by
  unfold Lane.rearPixel
  split
  · split
    · exact .inr ⟨_, rfl⟩
    · exact .inl rfl
  · exact .inl rfl

/-- An entry judged in RUN or DRAIN hands at most the lines up to the finished one. -/
theorem handed_judgeSorting (s : State) (l : LaneId) (e : FifoEntry) :
    ∃ n < 2 ^ 32, (s.lane l).Handed n ((s.judgeSorting l e).lane l) := by
  have hnone {t : State} (h : (s.lane l).Handed 0 (t.lane l)) : ∃ n < 2 ^ 32, (s.lane l).Handed n (t.lane l) :=
    ⟨0, by decide, h⟩
  unfold State.judgeSorting
  dsimp only
  split
  · exact hnone (handed_sortingHeader s l _ _)
  · exact hnone (handed_stray s l)
  · exact hnone (handed_modLane (handed_pixel (frontPixel_cases _ _ _ _)))
  · exact hnone (handed_modLane (handed_pixel (rearPixel_cases _ _ _ _)))
  · exact hnone (handed_stray s l)
  · unfold State.endWord
    split
    · split
      · rename_i a _ _
        have := lineDiff_lt a.line (s.lane l).expected
        exact ⟨_, by omega, handed_finishLine s l a _⟩
      · exact hnone (handed_stray s l)
    · exact hnone (handed_stray s l)
  · exact hnone (handed_stray s l)
  · exact hnone (.refl _)

/-- Expiry hands at most as many lines as it has repetitions. -/
theorem handed_expire (s : State) (l : LaneId) (fuel : Nat) :
    ∃ n ≤ fuel, (s.lane l).Handed n ((s.expire l fuel).lane l) := by
  induction fuel generalizing s with
  | zero => exact ⟨0, le_rfl, .refl _⟩
  | succ fuel ih =>
    have htail (t : State) (e : LineNo) (h : (s.lane l).Handed 0 (t.lane l)) :
        ∃ n ≤ fuel + 1, (s.lane l).Handed n ((((t.handVoid l false).setExpected l e).expire l fuel).lane l) := by
      obtain ⟨n, hn, hrest⟩ := ih ((t.handVoid l false).setExpected l e)
      have hall := ((h.trans (handed_handVoid t l false)).trans (handed_setExpected _ l e)).trans hrest
      exact ⟨_, by omega, hall⟩
    simp only [State.expire]
    split
    · split
      · split
        · exact htail _ _ (handed_damageLine s l _ _)
        · exact htail s _ (.refl _)
      · exact htail s _ (.refl _)
    · exact ⟨0, Nat.zero_le _, .refl _⟩

/-! ### The end of an intake event -/

theorem intervalSnapshot_lane (s : State) (l m : LaneId) (b : Word) (n : Nat) :
    (s.intervalSnapshot l b n).lane m = s.lane m :=
  (worked_intervalSnapshot (L := ∅) s l b n).other m (Set.notMem_empty m)

theorem lineBoundary_lane (s : State) (l m : LaneId) (n : Nat) : (s.lineBoundary l n).lane m = s.lane m :=
  (worked_lineBoundary (L := ∅) s l n).other m (Set.notMem_empty m)

/-- What the end of an intake event leaves of its lane: the drain condition evaluated. -/
theorem closeIntake_lane (s : State) (l : LaneId) (x : Lane) :
    (s.closeIntake l x).lane l =
      (s.lane l).evaluated x.quiet (linesHanded x.counters.linesProcessed (s.lane l).counters.linesProcessed) := by
  simp only [State.closeIntake, evaluateDrain_eq, lane_modLane_self, lineBoundary_lane, intervalSnapshot_lane]

theorem samePath_closeIntake (s : State) (l : LaneId) (x : Lane) : s.SamePath (s.closeIntake l x) := by
  have hsnap : s.SamePath (s.intervalSnapshot l x.counters.linesProcessed
      (linesHanded x.counters.linesProcessed (s.lane l).counters.linesProcessed)) := by
    unfold State.intervalSnapshot
    dsimp only
    split
    · exact samePath_takeSnapshot _ _ _
    · exact .rfl' s
  have hboundary (t : State) (n : Nat) : t.SamePath (t.lineBoundary l n) := by
    unfold State.lineBoundary
    split
    · exact samePath_setCmu _ _
    · exact .rfl' t
  exact (hsnap.trans (hboundary _ _)).trans (samePath_evaluateDrain _ _ _ _)

/-- The intake's work in RUN and DRAIN, with the end of its event. -/
theorem modeSound_endIntake {s u : State} {l : LaneId} {n : Nat} (h : s.ModeSound) (hsorting : (s.lane l).mode.sorting = true)
    (hwork : s.Worked {l} u) (hpath : s.SamePath u) (hn : n < 2 ^ 32) (hhanded : (s.lane l).Handed n (u.lane l)) :
    (u.endIntake l (s.lane l)).ModeSound := by
  rw [endIntake_eq]
  refine modeSound_finishCommands (h.of_lane (hwork.trans (worked_closeIntake u (Set.mem_singleton l) _))
    (hpath.trans (samePath_closeIntake _ _ _)) ?_ fun hoff => ?_)
  · rw [closeIntake_lane]
    exact hhanded.sound hn hsorting (h.sound l)
  · simp [hoff, LaneMode.sorting] at hsorting

/-- The end of an intake event of a lane that is not in DRAIN evaluates nothing. -/
theorem modeSound_endIntake_of_not_drain {s : State} {l : LaneId} (h : s.ModeSound) (hmode : (s.lane l).mode ≠ .drain)
    (x : Lane) : (s.endIntake l x).ModeSound := by
  have hlane : (s.closeIntake l x).lane l = s.lane l := by
    rw [closeIntake_lane, Lane.evaluated, if_neg (by simp [hmode])]
  rw [endIntake_eq]
  refine modeSound_finishCommands (h.of_lane (worked_closeIntake s (Set.mem_singleton l) x) (samePath_closeIntake s l x)
    ?_ ?_) <;> rw [hlane]
  · exact h.sound l
  · exact fun hoff hshut => ⟨hoff, hshut⟩

/-! ### Intake -/

/-- A lane in HOLD that keeps its mode through sound work. -/
theorem State.ModeSound.of_hold {s t : State} {l : LaneId} (h : s.ModeSound) (hhold : (s.lane l).mode = .hold)
    (hwork : s.Worked {l} t) (hpath : s.SamePath t) (hlane : (t.lane l).Sound) : t.ModeSound :=
  h.of_lane hwork hpath hlane fun hoff => by simp [hhold] at hoff

/-- Header tracking in HOLD moves E or counts (R16). -/
theorem judgeHolding_lane {s : State} {l : LaneId} (hs : (s.lane l).Sound) (e : FifoEntry) :
    ((s.judgeHolding l e).lane l).Sound ∧ ((s.judgeHolding l e).lane l).mode = (s.lane l).mode := by
  have hstray : ((s.modLane l Lane.stray).lane l).Sound ∧ ((s.modLane l Lane.stray).lane l).mode = (s.lane l).mode := by
    rw [lane_modLane_self]
    exact ⟨hs.stray, rfl⟩
  unfold State.judgeHolding
  split
  · unfold State.trackedHeader State.judgedHeader
    split
    · simp only [State.headerAhead, record_lane, lane_modLane_self]
      exact ⟨hs.counters _, rfl⟩
    · simp only [State.headerStale, record_lane, lane_modLane_self]
      exact ⟨hs.counters _, rfl⟩
    · rw [setExpected_lane]
      exact ⟨hs.expected _, rfl⟩
  · exact hstray
  all_goals exact ⟨hs, rfl⟩

theorem sorting_of_run_drain {m : LaneMode} (h : m = .run ∨ m = .drain) : m.sorting = true := by
  rcases h with rfl | rfl <;> rfl

/-- The judgement of an entry with the end of its intake event. -/
theorem modeSound_judged {s : State} (h : s.ModeSound) (e : FifoEntry) :
    ((s.judgeEntry e).endIntake (ringLane e.offset) (s.lane (ringLane e.offset))).ModeSound := by
  have hlines (hmode : (s.lane (ringLane e.offset)).mode.sorting = true) :
      ((s.judgeSorting (ringLane e.offset) e).endIntake (ringLane e.offset) (s.lane (ringLane e.offset))).ModeSound := by
    obtain ⟨n, hn, hhanded⟩ := handed_judgeSorting s (ringLane e.offset) e
    exact modeSound_endIntake h hmode (worked_judgeSorting s (Set.mem_singleton _) e) (samePath_judgeSorting s _ e) hn hhanded
  unfold State.judgeEntry
  dsimp only
  split
  · rename_i hmode
    exact modeSound_endIntake_of_not_drain h (by simp [hmode]) _
  · rename_i hmode
    exact hlines (sorting_of_run_drain (.inl hmode))
  · rename_i hmode
    exact hlines (sorting_of_run_drain (.inr hmode))
  · rename_i hmode
    obtain ⟨hsound, hsame⟩ := judgeHolding_lane (h.sound _) e
    exact modeSound_endIntake_of_not_drain (h.of_hold hmode (worked_judgeHolding s (Set.mem_singleton _) e)
      (samePath_judgeHolding s _ e) hsound) (by simp [hsame, hmode]) _
  · rename_i hmode
    exact modeSound_endIntake_of_not_drain h (by simp [hmode]) _

theorem modeSound_leaveFifo {s : State} (h : s.ModeSound) : s.leaveFifo.ModeSound := by
  unfold State.leaveFifo
  split
  · rename_i e rest _
    have hleft : ({ s with ptu := s.ptu.leave rest } : State).ModeSound :=
      h.of_lanes (fun l => by cases l <;> rfl) (fun _ => rfl) id
    exact modeSound_judged hleft e
  · exact h

/-- A line start at the LIU with the end of its event. -/
theorem modeSound_reachIntake {s : State} (h : s.ModeSound) (l : LaneId) : (s.reachIntake l).ModeSound := by
  have hlines (hmode : (s.lane l).mode.sorting = true) :
      ((s.expire l (s.lane l).linesBehind).endIntake l (s.lane l)).ModeSound := by
    obtain ⟨n, hn, hhanded⟩ := handed_expire s l (s.lane l).linesBehind
    have := lineDiff_lt (s.lane l).clock.ln (s.lane l).expected
    exact modeSound_endIntake h hmode (worked_expire s (Set.mem_singleton l) _) (samePath_expire s l _)
      (hn.trans_lt (by unfold Lane.linesBehind; omega)) hhanded
  unfold State.reachIntake State.intakeLineStart
  dsimp only
  split
  · rename_i hmode
    exact modeSound_endIntake_of_not_drain h (by simp [hmode]) _
  · rename_i hmode
    exact hlines (sorting_of_run_drain (.inl hmode))
  · rename_i hmode
    exact hlines (sorting_of_run_drain (.inr hmode))
  · rename_i hmode
    have hmode' (x : Lane) (n : Nat) : (x.trackExpected n).mode = x.mode := by
      induction n generalizing x with
      | zero => rfl
      | succ n ih =>
        unfold Lane.trackExpected
        split
        · exact ih _
        · rfl
    refine modeSound_endIntake_of_not_drain (h.of_hold hmode
      (worked_modLane (Set.mem_singleton l) (Lane.kept_trackExpected _ _)) (samePath_modLane _ _ _) ?_) ?_ _ <;>
      rw [lane_modLane_self]
    · exact (h.sound l).trackExpected _
    · simp [hmode', hmode]
  · rename_i hmode
    exact modeSound_endIntake_of_not_drain h (by simp [hmode]) _

/-! ### Ticks -/

theorem takeTick_lane (s : State) (l : LaneId) (k : Nat) :
    (s.takeTick l k).lane l =
      (({ s.lane l with clock := { (s.lane l).clock with k := k } } : Lane).ejectorTick s.now
        (tickTime (s.lane l).clock.ln k)).evaluated (s.lane l).quiet 0 := by
  simp [State.takeTick, evaluateDrain_eq, State.tickOnly]

/-- A tick as tame work with an evaluation. -/
theorem takeTick_tame (s : State) (l : LaneId) (k : Nat) :
    ∃ y, (s.lane l).Tame y ∧ (s.takeTick l k).lane l = y.evaluated (s.lane l).quiet 0 := by
  have hcounted : (s.lane l).Tame { s.lane l with clock := { (s.lane l).clock with k := k } } :=
    .of_same rfl rfl rfl rfl id id rfl rfl
  exact ⟨_, hcounted.trans (Lane.tame_ejectorTick _ _ _), takeTick_lane s l k⟩

theorem evaluated_mode (x : Lane) (q : Bool) (n : Nat) : (x.evaluated q n).mode = x.mode := by rw [evaluated_same]

theorem evaluated_clock (x : Lane) (q : Bool) (n : Nat) : (x.evaluated q n).clock = x.clock := by rw [evaluated_same]

/-- A tick keeps the lane's mode and its clock's state. -/
theorem takeTick_keeps (s : State) (l : LaneId) (k : Nat) :
    ((s.takeTick l k).lane l).mode = (s.lane l).mode ∧ ((s.takeTick l k).lane l).clock.state = (s.lane l).clock.state := by
  obtain ⟨y, htame, hy⟩ := takeTick_tame s l k
  rw [hy, evaluated_mode, evaluated_clock]
  exact ⟨htame.mode, htame.clock⟩

theorem modeSound_evaluated {s t : State} {l : LaneId} {y : Lane} (h : s.ModeSound) (htame : (s.lane l).Tame y)
    (hy : t.lane l = y.evaluated (s.lane l).quiet 0) (hwork : s.Worked {l} t) (hpath : s.SamePath t) : t.ModeSound := by
  refine h.of_lane hwork hpath ?_ fun hoff hshut => ?_ <;> rw [hy]
  · exact htame.sound_evaluated 0 (h.sound l)
  · exact evaluated_off_shut (htame.off_shut (h.sound l) hoff hshut)

theorem modeSound_takeTick {s : State} (h : s.ModeSound) (l : LaneId) {k : Nat} (hk : k ≤ 15) :
    (s.takeTick l k).ModeSound := by
  obtain ⟨y, htame, hy⟩ := takeTick_tame s l k
  exact modeSound_evaluated h htame hy (worked_takeTick s (Set.mem_singleton l) hk) (samePath_takeTick s l k)

theorem swapLane_keeps (s : State) (l : LaneId) :
    ((s.swapLane l).lane l).mode = (s.lane l).mode ∧ ((s.swapLane l).lane l).clock = (s.lane l).clock := by
  rcases swapLane_cases s l with h | h <;> rw [h] <;> exact ⟨rfl, rfl⟩

theorem settleSwap_keeps (s : State) (l : LaneId) :
    ((s.settleSwap l).lane l).mode = (s.lane l).mode ∧ ((s.settleSwap l).lane l).clock = (s.lane l).clock := by
  unfold State.settleSwap
  split
  · exact ⟨rfl, rfl⟩
  · exact swapLane_keeps s l

/-- A HOLD entry is from DRAIN, and keeps the clock. -/
theorem settleDrain_keeps (s : State) (l : LaneId) :
    (((s.settleDrain l).lane l).mode = (s.lane l).mode ∨
        (s.lane l).mode = .drain ∧ ((s.settleDrain l).lane l).mode = .hold) ∧
      ((s.settleDrain l).lane l).clock = (s.lane l).clock := by
  rw [settleDrain_lane]
  split
  · rename_i hdue
    exact ⟨.inr ⟨hdue.1, rfl⟩, rfl⟩
  · exact ⟨.inl rfl, rfl⟩

/-- What the ticks of one line can do to the mode and the clock's state. -/
structure Lane.TickedOn (x y : Lane) : Prop where
  mode : y.mode = x.mode ∨ x.mode = .drain ∧ y.mode = .hold
  clock : y.clock.state = x.clock.state

theorem Lane.TickedOn.refl (x : Lane) : x.TickedOn x := ⟨.inl rfl, rfl⟩

theorem Lane.TickedOn.trans {x y z : Lane} (h : x.TickedOn y) (k : y.TickedOn z) : x.TickedOn z where
  mode := by
    rcases h.mode with h | h <;> rcases k.mode with k | k
    · exact .inl (k.trans h)
    · exact .inr ⟨h ▸ k.1, k.2⟩
    · exact .inr ⟨h.1, k.trans h.2⟩
    · simp [h.2] at k
  clock := k.clock.trans h.clock

theorem tickedOn_takeTick (s : State) (l : LaneId) (k : Nat) : (s.lane l).TickedOn ((s.takeTick l k).lane l) :=
  have ⟨hmode, hclock⟩ := takeTick_keeps s l k
  ⟨.inl hmode, hclock⟩

theorem tickedOn_ticksFrom (s : State) (l : LaneId) (k n : Nat) : (s.lane l).TickedOn ((s.ticksFrom l k n).lane l) := by
  induction n generalizing s k with
  | zero => exact .refl _
  | succ n ih =>
    have hdrain (t : State) : (t.lane l).TickedOn ((t.settleDrain l).lane l) :=
      have ⟨hmode, hclock⟩ := settleDrain_keeps t l
      ⟨hmode, congrArg Clock.state hclock⟩
    have hswap (t : State) : (t.lane l).TickedOn ((t.settleSwap l).lane l) :=
      have ⟨hmode, hclock⟩ := settleSwap_keeps t l
      ⟨.inl hmode, congrArg Clock.state hclock⟩
    exact (((tickedOn_takeTick s l k).trans (hdrain _)).trans (hswap _)).trans (ih _ _)

theorem modeSound_ticksFrom {s : State} (h : s.ModeSound) (l : LaneId) {k n : Nat} (hk : k + n ≤ 16) :
    (s.ticksFrom l k n).ModeSound := by
  induction n generalizing s k with
  | zero => exact h
  | succ n ih =>
    exact ih (modeSound_settleSwap (modeSound_settleDrain (modeSound_takeTick h l (by omega)) l) l) (by omega)

theorem modeSound_remainingTicks {s : State} (h : s.ModeSound) (l : LaneId) : (s.remainingTicks l).ModeSound := by
  unfold State.remainingTicks
  by_cases hk : (s.lane l).clock.k ≤ 15
  · exact modeSound_ticksFrom h l (by omega)
  · rw [Nat.sub_eq_zero_of_le (by omega)]
    exact h

theorem modeSound_reachedTicks {s : State} (h : s.ModeSound) (l : LaneId) (n : Nat) : (s.reachedTicks l n).ModeSound := by
  induction n generalizing s with
  | zero => exact h
  | succ n ih =>
    simp only [State.reachedTicks]
    split
    · rename_i hdue
      exact ih (modeSound_takeTick h l (tickDue_lt hdue))
    · exact h

theorem tickedOn_reachedTicks (s : State) (l : LaneId) (n : Nat) : (s.lane l).TickedOn ((s.reachedTicks l n).lane l) := by
  induction n generalizing s with
  | zero => exact .refl _
  | succ n ih =>
    simp only [State.reachedTicks]
    split
    · exact (tickedOn_takeTick s l _).trans (ih _)
    · exact .refl _

/-! ### The clock -/

/-- A change of the clock that keeps its state. -/
theorem modeSound_modClock {s : State} (h : s.ModeSound) (l : LaneId) {f : Clock → Clock}
    (hstate : ∀ c, (f c).state = c.state) : (s.modClock l f).ModeSound := by
  have hlane : (s.modClock l f).lane l = { s.lane l with clock := f (s.lane l).clock } := lane_modLane_self _ _ _
  have hother (m : LaneId) (hm : m ≠ l) : (s.modClock l f).lane m = s.lane m := lane_modLane_ne _ _ hm
  have hpath := samePath_modClock s l f
  have hsound (m : LaneId) : ((s.modClock l f).lane m).Sound := by
    by_cases hm : m = l
    · rw [hm, hlane]
      exact (h.sound l).clock (hstate _)
    · rw [hother m hm]
      exact h.sound m
  refine ⟨fun m => (hsound m).modes, fun m => (hsound m).supply, fun hr => ?_⟩
  obtain ⟨hslot, hoff⟩ := h.reset (hpath.inReset ▸ hr)
  refine ⟨(congrArg Cmu.slot (modLane_cmu s l _)).trans hslot, fun m => ?_⟩
  by_cases hm : m = l
  · subst hm
    rw [hlane]
    exact hoff m
  · rw [hother m hm]
    exact hoff m

/-- A clock that runs goes on running: LOCKED at an edge, or COASTING. -/
theorem modeSound_runs {s : State} (h : s.ModeSound) (l : LaneId) {f : Clock → Clock}
    (hrunning : (s.lane l).clock.state ≠ .idle) (hruns : (f (s.lane l).clock).state.runs)
    (hk : (f (s.lane l).clock).k = (s.lane l).clock.k) : (s.modClock l f).ModeSound := by
  obtain ⟨hoff, hfault⟩ := (h.sound l).mode_of_runs hrunning
  refine h.of_lane (worked_modClock (Set.mem_singleton l) hk) (samePath_modClock s l f) ?_ fun h' => absurd h' hoff
  rw [show (s.modClock l f).lane l = { s.lane l with clock := f (s.lane l).clock } from lane_modLane_self _ _ _]
  exact (h.sound l).clock_runs hruns hoff hfault

theorem modeSound_beginLine {s : State} (h : s.ModeSound) (l : LaneId) (n : Nat) : (s.beginLine l n).ModeSound :=
  modeSound_takeTick (modeSound_modClock h l (f := fun c => c.newLine n) fun _ => rfl) l (Nat.zero_le _)

theorem tickedOn_modClock (s : State) (l : LaneId) {f : Clock → Clock} (hf : ∀ c, (f c).state = c.state) :
    (s.lane l).TickedOn ((s.modClock l f).lane l) := by
  rw [show (s.modClock l f).lane l = { s.lane l with clock := f (s.lane l).clock } from lane_modLane_self _ _ _]
  exact ⟨.inl rfl, hf _⟩

theorem tickedOn_beginLine (s : State) (l : LaneId) (n : Nat) : (s.lane l).TickedOn ((s.beginLine l n).lane l) :=
  (tickedOn_modClock s l (f := fun c => c.newLine n) fun _ => rfl).trans (tickedOn_takeTick _ l 0)

theorem measureEdge_keeps (x : Lane) (m : Nat) : (x.measureEdge m).mode = x.mode ∧
    (x.measureEdge m).clock.state = x.clock.state := by
  unfold Lane.measureEdge
  dsimp only
  split
  · exact ⟨rfl, rfl⟩
  · split <;> exact ⟨rfl, rfl⟩

theorem modeSound_modLane {s : State} (h : s.ModeSound) (l : LaneId) {f : Lane → Lane}
    (hkept : (s.lane l).Kept (f (s.lane l))) (hsound : (f (s.lane l)).Sound)
    (hreset : (s.lane l).mode = .off → (s.lane l).AllShut → (f (s.lane l)).mode = .off ∧ (f (s.lane l)).AllShut) :
    (s.modLane l f).ModeSound :=
  h.of_lane (worked_modLane (Set.mem_singleton l) hkept) (samePath_modLane _ _ _) (by rwa [lane_modLane_self])
    (by rwa [lane_modLane_self])

section
variable {s : State} (h : s.ModeSound) (l : LaneId)
include h

theorem modeSound_firstEdge (hc : (s.lane l).clock.state = .waiting) : (s.firstEdge l).ModeSound := by
  have hbegun := tickedOn_beginLine s l s.now
  have hlocked : ((s.beginLine l s.now).modClock l fun c => c.lock s.now).ModeSound :=
    modeSound_runs (modeSound_beginLine h l s.now) l (by rw [hbegun.clock, hc]; nofun) (.inr (.inl rfl)) rfl
  exact modeSound_reachIntake (modeSound_record hlocked _) l

theorem modeSound_lockedEdge : (s.lockedEdge l).ModeSound := by
  have hticked := modeSound_remainingTicks h l
  have hmeasured (m : Nat) : ((s.remainingTicks l).modLane l fun x => x.measureEdge m).ModeSound := by
    refine modeSound_modLane hticked l (Lane.kept_measureEdge _ _) ((hticked.sound l).measureEdge m) fun hoff hshut => ?_
    refine ⟨(measureEdge_keeps _ m).1.trans hoff, ?_⟩
    unfold Lane.measureEdge
    dsimp only
    split
    · exact hshut
    · split <;> exact hshut
  exact modeSound_reachIntake (modeSound_modClock (modeSound_beginLine (hmeasured _) l _) l
    (f := fun c => { c with coastDeadline := some (c.deadlineAfter s.now) }) fun _ => rfl) l

theorem modeSound_relockNewLine (hc : (s.lane l).clock.state = .coasting) : (s.relockNewLine l).ModeSound := by
  have hticked := (tickedOn_ticksFrom s l ((s.lane l).clock.k + 1) (15 - (s.lane l).clock.k)).trans
    (tickedOn_beginLine (s.remainingTicks l) l s.now)
  have hlocked : (((s.remainingTicks l).beginLine l s.now).modClock l fun c => c.lock s.now).ModeSound :=
    modeSound_runs (modeSound_beginLine (modeSound_remainingTicks h l) l s.now) l (by rw [hticked.clock, hc]; nofun)
      (.inr (.inl rfl)) rfl
  exact modeSound_reachIntake (modeSound_record hlocked _) l

theorem modeSound_reAnchor (hc : (s.lane l).clock.state = .coasting) : (s.reAnchor l).ModeSound :=
  modeSound_record (modeSound_runs h l (f := fun c => { c.lock s.now with lineStart := s.now }) (by rw [hc]; nofun)
    (.inr (.inl rfl)) rfl) _

theorem modeSound_edge : (s.edge l).ModeSound := by
  have hglitch : (s.modLane l Lane.glitch).ModeSound :=
    modeSound_modLane h l (Lane.kept_glitch _) (h.sound l).glitch fun hoff hshut => ⟨hoff, hshut⟩
  unfold State.edge
  dsimp only
  split
  · exact h
  · rename_i hc
    exact modeSound_firstEdge h l hc
  · split
    · exact hglitch
    · exact modeSound_lockedEdge h l
  · rename_i hc
    split
    · exact hglitch
    · split
      · exact modeSound_relockNewLine h l hc
      · exact modeSound_reAnchor h l hc
  · exact h

theorem modeSound_syntheticStart (n : Nat) : (s.syntheticStart l n).ModeSound :=
  modeSound_reachIntake (modeSound_modClock (modeSound_reachedTicks (modeSound_beginLine (modeSound_remainingTicks h l) l n) l
    15) l (f := fun c => { c with episode := c.episode + 1, nextSynthetic := some (n + c.period) }) fun _ => rfl) l

theorem modeSound_deadlineFalls : (s.deadlineFalls l).ModeSound := by
  unfold State.deadlineFalls
  dsimp only
  split
  · rename_i hdue
    have hrunning : (s.lane l).clock.state ≠ .idle := by rw [hdue.1]; nofun
    have hcoasting : (s.modLane l Lane.enterCoasting).ModeSound :=
      modeSound_modLane h l (Lane.kept_enterCoasting _) ((h.sound l).enterCoasting hrunning)
        fun hoff => absurd hoff ((h.sound l).mode_of_runs hrunning).1
    exact modeSound_syntheticStart (modeSound_record hcoasting _) l _
  · exact h

/-- The loss of the clock leaves its lane in FAULT with nothing left in it, whatever it held (R120, R157). -/
theorem modeSound_loseClock (hc : (s.lane l).clock.state = .coasting) : (s.loseClock l).ModeSound := by
  refine h.of_lane (worked_loseClock s (Set.mem_singleton l)) (samePath_loseClock s l) ?_ fun hoff => ?_
  · rw [State.loseClock, faultLane_lane]
    exact (stopBlocks_stopped _ _ _ _).sound (.inr (stopBlocks_mode _ _ _ _))
  · exact absurd hoff ((h.sound l).mode_of_runs (by rw [hc]; nofun)).1

theorem modeSound_syntheticFalls : (s.syntheticFalls l).ModeSound := by
  unfold State.syntheticFalls
  dsimp only
  split
  · split
    · rename_i hdue
      split
      · exact modeSound_loseClock h l hdue.1
      · exact modeSound_syntheticStart h l _
    · exact h
  · exact h

theorem modeSound_tickFalls : (s.tickFalls l).ModeSound := by
  unfold State.tickFalls
  dsimp only
  split
  · rename_i hdue
    exact modeSound_takeTick h l (tickDue_lt hdue)
  · exact h

end

/-! ### Valves and supply -/

theorem ejectorEvent_lane (s : State) (l : LaneId) (w : Lane × List Record) :
    (s.ejectorEvent l w).lane l = w.1.evaluated (s.lane l).quiet 0 := by
  simp [State.ejectorEvent, evaluateDrain_eq]

theorem modeSound_ejectorEvent {s : State} (h : s.ModeSound) {l : LaneId} {w : Lane × List Record}
    (hkept : (s.lane l).Kept w.1) (htame : (s.lane l).Tame w.1) : (s.ejectorEvent l w).ModeSound :=
  modeSound_evaluated h htame (ejectorEvent_lane s l w) (worked_ejectorEvent hkept) (samePath_ejectorEvent s l w)

/-- The lane after a supply drop: every valve shut, none waiting (R95). -/
theorem dropSupply_eq (x : Lane) (l : LaneId) (now : Nat) :
    (x.dropSupply l now).1 =
      { x with
        valves := (x.mapValves fun y => { x.endOpening now x.endTickNow y with pending := none }).valves
        counters := x.counters.missed .supply (x.countValves fun y => y.pending.isSome), supplyGood := false
        episodeMissed := x.countValves fun y => y.pending.isSome } := by
  simp only [Lane.dropSupply, Lane.mapValves, Lane.countMissed, Lane.countValves]

theorem endOpening_shut (x : Lane) (now : Nat) (e : Option TickTime) (y : Valve) : (x.endOpening now e y).opening = none := by
  unfold Lane.endOpening
  split
  · rfl
  · rename_i h
    simpa using h

/-- A lane that loses its supply with every valve shut and none waiting, once its drain condition has been evaluated. -/
theorem Lane.Sound.shutLow {x : Lane} (hx : x.Sound) {vs : Vector Valve 64} (c : Counters) (n : Nat)
    (hshut : ∀ v : Fin 64, vs[v].opening = none ∧ vs[v].pending = none) :
    (({ x with valves := vs, counters := c, supplyGood := false, episodeMissed := n } : Lane).evaluated x.quiet 0).Sound := by
  have htame : x.Tame { x with valves := vs, counters := c } :=
    ⟨rfl, rfl, rfl, rfl, id, id, id, fun _ v _ =>
      ⟨(hshut v).2, fun _ => firingOpen_of_opening (hshut v).1, fun _ => (hshut v).1⟩⟩
  have hlow : ({ x with valves := vs, counters := c, supplyGood := false, episodeMissed := n } : Lane).evaluated x.quiet 0 =
      { ({ x with valves := vs, counters := c } : Lane).evaluated x.quiet 0 with supplyGood := false, episodeMissed := n } := by
    have hquiet : ({ x with valves := vs, counters := c, supplyGood := false, episodeMissed := n } : Lane).quiet =
        ({ x with valves := vs, counters := c } : Lane).quiet := quiet_of_same rfl rfl
    unfold Lane.evaluated
    rw [hquiet]
    split <;> rfl
  rw [hlow]
  refine (htame.sound_evaluated 0 hx).supplyLow (fun v => ?_) (fun v => ?_) _ <;> rw [evaluated_same]
  · exact (hshut v).1
  · exact (hshut v).2

theorem Lane.Sound.dropSupply {x : Lane} (hx : x.Sound) (l : LaneId) (now : Nat) :
    ((x.dropSupply l now).1.evaluated x.quiet 0).Sound := by
  rw [dropSupply_eq]
  refine hx.shutLow _ _ fun v => ?_
  have hmapped := valve_mapValves x (fun y => { x.endOpening now x.endTickNow y with pending := none }) v
  rw [Lane.valve] at hmapped
  rw [hmapped]
  exact ⟨endOpening_shut x now x.endTickNow (x.valve v), rfl⟩

section
variable {s : State} (h : s.ModeSound) (l : LaneId)
include h

theorem modeSound_supplyFalls : (s.supplyFalls l).ModeSound := by
  unfold State.supplyFalls
  split
  · exact h
  · split
    · rename_i hreset
      obtain ⟨-, hoff⟩ := h.reset hreset
      have hinert := ((h.sound l).modes.off (hoff l).1).1
      exact modeSound_modLane h l (Lane.kept_supplyGood _ _)
        ((h.sound l).supplyLow (hoff l).2 (fun v => (hinert.valves v).1) _) fun hmode hshut => ⟨hmode, hshut⟩
    · rename_i hrun
      refine h.of_running (by simpa using hrun) (worked_ejectorEvent (Lane.kept_dropSupply _ _ _))
        (samePath_ejectorEvent _ _ _) ?_
      rw [ejectorEvent_lane]
      exact (h.sound l).dropSupply l s.now

theorem modeSound_supplyRises : (s.supplyRises l).ModeSound := by
  unfold State.supplyRises
  split
  · exact h
  · split
    · exact modeSound_modLane h l (Lane.kept_supplyGood _ _) ((h.sound l).supplyHigh _) fun hmode hshut => ⟨hmode, hshut⟩
    · rename_i hrun
      refine h.of_running (by simpa using hrun) (worked_ejectorEvent (Lane.kept_returnSupply _ _))
        (samePath_ejectorEvent _ _ _) ?_
      have hquiet : ((s.lane l).returnSupply l).1.quiet = (s.lane l).quiet := quiet_of_same rfl rfl
      rw [ejectorEvent_lane, Lane.evaluated, if_neg (by simp [hquiet])]
      exact (h.sound l).supplyHigh 0

end

end Sys2Proof.Machine

/-! ## Proofs: every step keeps the promises of the lane modes, and what changes a mode (O57) -/
namespace Sys2Proof.Machine

/-! ### The memory path, the recipe, the writer and the resets keep the promises -/

theorem modeSound_setPtu {s : State} (h : s.ModeSound) (p : Ptu) : ({ s with ptu := p } : State).ModeSound :=
  h.of_lanes (fun l => by cases l <;> rfl) (fun _ => rfl) id

theorem modeSound_hold {s : State} (h : s.ModeSound) (a : Access) : (s.hold a).ModeSound := modeSound_setPtu h _

theorem modeSound_setCommit {s : State} (h : s.ModeSound) (c : Commit) :
    ({ s with rtu := { s.rtu with commit := c } } : State).ModeSound :=
  h.of_lanes (fun l => by cases l <;> rfl) (fun _ => rfl) id

theorem stagingWritten_cases (s : State) (i : BitVec 10) (d : Word) (be : Enables) :
    (s.stagingWritten i d be) = s.mergeStaged i d be ∨ ∃ c e, s.stagingWritten i d be = (s.mergeStaged i d be).endCommit c e := by
  unfold State.stagingWritten
  dsimp only
  split
  · exact .inl rfl
  · exact .inr ⟨_, _, rfl⟩
  · exact .inr ⟨_, _, rfl⟩

theorem modeSound_stagingWritten {s : State} (h : s.ModeSound) (i : BitVec 10) (d : Word) (be : Enables) :
    (s.stagingWritten i d be).ModeSound := by
  have hmerged : (s.mergeStaged i d be).ModeSound := h.of_lanes (fun l => by cases l <;> rfl) (fun _ => rfl) id
  obtain hs | ⟨c, e, hs⟩ := stagingWritten_cases s i d be <;> rw [hs]
  · exact hmerged
  · exact modeSound_of_worked_empty hmerged (worked_endCommit _ _ _) (samePath_endCommit _ _ _)

theorem modeSound_goWordArrives {s : State} (h : s.ModeSound) (hrun : s.inReset = false) (g : Word) :
    (s.goWordArrives g).ModeSound := by
  have hheld (r : Option CommandRecord) : ({ s with cmu := { s.cmu with slot := r } } : State).ModeSound :=
    h.of_lanes (fun l => by cases l <;> rfl) (fun hr => by simp [hrun] at hr) id
  unfold State.goWordArrives
  dsimp only
  split
  · exact modeSound_executeCommand h hrun _
  · split
    · exact hheld _
    · exact modeSound_record (hheld _) _

theorem modeSound_observe {s : State} (h : s.ModeSound) (hrun : s.inReset = false) (o : FrameOffset) (d : Word)
    (be : Enables) : (s.observe o d be).ModeSound := by
  have hcmu (c : Cmu) (hc : c.slot = s.cmu.slot) : ({ s with cmu := c } : State).ModeSound :=
    h.of_lanes (fun l => by cases l <;> rfl) (fun _ => hc) id
  unfold State.observe
  split
  · exact h
  · exact hcmu _ rfl
  · unfold State.goWritten
    split
    · exact modeSound_goWordArrives h hrun d
    · exact h
  · unfold State.consumerWritten
    split
    · exact hcmu _ rfl
    · exact h
  · exact modeSound_finishCommands (modeSound_stagingWritten h _ _ _)
  · unfold State.enterFifo
    split <;> exact modeSound_setPtu h _

theorem modeSound_acceptWrite {s : State} (h : s.ModeSound) (a : WordAddr) (d : Word) (be : Enables) :
    (s.acceptWrite a d be).ModeSound := by
  unfold State.acceptWrite
  split
  · exact h
  · unfold State.takeWrite
    dsimp only
    split
    · rename_i hwatched
      simp only [Bool.and_eq_true, Bool.not_eq_true'] at hwatched
      exact modeSound_observe (modeSound_hold h _) hwatched.1 _ _ _
    · exact modeSound_setPtu h _

theorem modeSound_acceptRead {s : State} (h : s.ModeSound) (a : WordAddr) (be : Enables) : (s.acceptRead a be).ModeSound := by
  unfold State.acceptRead
  split
  · exact h
  · exact modeSound_setPtu h _

theorem modeSound_stallEnds {s : State} (h : s.ModeSound) : s.stallEnds.ModeSound := by
  unfold State.stallEnds
  split
  · split
    · have hended := modeSound_setPtu h { s.ptu with stall := none }
      exact modeSound_modLane hended _ (Lane.kept_loseWrite _) (hended.sound _).loseWrite fun hoff hshut => ⟨hoff, hshut⟩
    · exact h
  · exact h

theorem modeSound_endScan {s : State} (h : s.ModeSound) : s.endScan.ModeSound := by
  have hatOnce {t : State} (ht : t.ModeSound) (l : LaneId) : (t.swapAtOnce l).ModeSound := by
    unfold State.swapAtOnce
    split
    · exact modeSound_swapLane ht l
    · exact ht
  have hended (c : CommandStatus) (d : Word) : (s.endCommit c d).ModeSound :=
    modeSound_of_worked_empty h (worked_endCommit _ _ _) (samePath_endCommit _ _ _)
  unfold State.endScan
  split
  · exact h
  · exact h
  · split
    · dsimp only
      split
      · exact hended _ _
      · split
        · exact hended _ _
        · exact hatOnce (hatOnce (modeSound_setCommit h _) .lane0) .lane1
    · exact h

theorem modeSound_handWord {s : State} (h : s.ModeSound) : s.handWord.ModeSound := by
  unfold State.handWord
  repeat' split
  · exact h.of_lanes (fun l => by cases l <;> rfl) (fun _ => rfl) id
  all_goals exact h

theorem modeSound_wordReported {s : State} (h : s.ModeSound) : s.wordReported.ModeSound := by
  unfold State.wordReported
  split
  · split
    · exact modeSound_finishCommands (modeSound_of_worked_empty h (worked_completeUnit _ _) (samePath_completeUnit _ _))
    · exact h.of_lanes (fun l => by cases l <;> rfl) (fun _ => rfl) id
  · exact h

theorem modeSound_accessCompletes {s : State} (h : s.ModeSound) : s.accessCompletes.ModeSound := by
  unfold State.accessCompletes
  split
  · exact h.of_lanes (fun l => by cases l <;> rfl) (fun _ => rfl) id
  · exact h

theorem modeSound_carryPart {s : State} (h : s.ModeSound) (o : FrameOffset) (d : Word) : (s.carryPart o d).ModeSound :=
  h.of_lanes (carryPart_lane s o d) (fun _ => rfl) id

theorem modeSound_partCompletes {s : State} (h : s.ModeSound) : s.partCompletes.ModeSound := by
  unfold State.partCompletes
  split
  · exact modeSound_wordReported (modeSound_carryPart (modeSound_setPtu h _) _ _)
  · exact h
  · exact h

theorem modeSound_flushPath {s : State} (h : s.ModeSound) : s.flushPath.ModeSound := by
  have hpart : s.flushPart.ModeSound := by
    unfold State.flushPart
    split
    · exact modeSound_carryPart h _ _
    · exact h
    · exact h
  have haccess {t : State} (ht : t.ModeSound) : t.flushAccess.ModeSound := by
    unfold State.flushAccess
    split
    · exact ht.of_lanes (carryAccess_lane t _) (fun _ => rfl) id
    · exact ht
  exact modeSound_setPtu (haccess hpart) _

theorem worked_resume (s : State) (w : Bool) : s.Worked ∅ (s.resume w) := by
  unfold State.resume
  split
  · exact .refl s
  · refine .trans (t := { s with rwu := { s.rwu with resetWarm := w } }) (worked_setRwu rfl rfl fun l => by cases l <;> rfl) ?_
    exact (((worked_record _ _).trans (worked_commonWaits _)).trans (worked_takeSnapshot _ _ _)).trans
      (worked_takeSnapshot _ _ _)

theorem modeSound_releasePor {s : State} (h : s.ModeSound) (f : BitVec 2) : (s.releasePor f).ModeSound := by
  unfold State.releasePor
  split
  · rename_i hpor
    have hreleased : ({ s.flushPath with porAsserted := false, ptu := { s.flushPath.ptu with frameSelect := f } } :
        State).ModeSound :=
      (modeSound_flushPath h).of_lanes (fun l => by cases l <;> rfl) (fun _ => rfl) fun hr => by
        simp only [State.inReset, Bool.false_or] at hr
        simp [State.inReset, hr]
    exact modeSound_of_worked_empty hreleased (worked_resume _ _) (samePath_resume _ _)
  · exact h

theorem modeSound_releaseWarm {s : State} (h : s.ModeSound) : s.releaseWarm.ModeSound := by
  unfold State.releaseWarm
  split
  · have hreleased : ({ s.flushPath with crstAsserted := false } : State).ModeSound :=
      (modeSound_flushPath h).of_lanes (fun l => by cases l <;> rfl) (fun _ => rfl) fun hr => by
        simp only [State.inReset, Bool.or_false] at hr
        simp [State.inReset, hr]
    exact modeSound_of_worked_empty hreleased (worked_resume _ _) (samePath_resume _ _)
  · exact h

theorem afterPor_stopped (x : Lane) : x.afterPor.Stopped := by
  have hvalve (v : Fin 64) : x.afterPor.valve v = {} := by
    simp only [Lane.valve, Lane.afterPor, Fin.getElem_fin, Vector.getElem_replicate]
  exact ⟨⟨rfl, rfl, rfl, fun v => by rw [hvalve v]; exact ⟨rfl, rfl⟩⟩, fun v => by rw [hvalve v]; rfl, rfl⟩

theorem afterWarm_eq (x : Lane) (now : Nat) :
    x.afterWarm now =
      { x with
        valves := (x.mapValves (x.cancelValve now)).valves, firings := [], episodeMissed := 0, mode := .off, drainCount := 0
        drainDue := false, assembly := none, expected := 0, objects := [], clock := x.clock.toIdle, counters := {} } := by
  simp only [Lane.afterWarm, Lane.warmResetEjector, Lane.mapValves]

theorem afterWarm_stopped (x : Lane) (now : Nat) : (x.afterWarm now).Stopped :=
  stopped_of_cancelled (x := x) (z := x) (now := now) (by rw [afterWarm_eq]) (by rw [afterWarm_eq]) (by rw [afterWarm_eq])
    (by rw [afterWarm_eq]) (by rw [afterWarm_eq]; rfl)

/-- A state whose lanes are OFF and stopped, with no command pending. -/
theorem modeSound_of_stopped {s : State} (h : ∀ l, (s.lane l).Stopped ∧ (s.lane l).mode = .off) (hslot : s.cmu.slot = none) :
    s.ModeSound where
  modes l := ((h l).1.sound (.inl (h l).2)).modes
  supply l := ((h l).1.sound (.inl (h l).2)).supply
  reset _ := ⟨hslot, fun l => ⟨(h l).2, (h l).1.shut⟩⟩

theorem modeSound_assertPor (s : State) : s.assertPor.ModeSound :=
  modeSound_of_stopped (fun l => by rw [assertPor_lane]; exact ⟨afterPor_stopped _, rfl⟩) rfl

theorem modeSound_assertWarm (s : State) : s.assertWarm.ModeSound :=
  modeSound_of_stopped (fun l => by rw [assertWarm_lane]; exact ⟨afterWarm_stopped _ _, rfl⟩) rfl

theorem modeSound_execLaneSwap {s t : State} {n : Nat} {l : LaneId} (h : s.ModeSound) (hexec : execLaneSwap n l s = .next t) :
    t.ModeSound := by
  have howed := modeSound_settleDrain (modeSound_settleDrain (modeSound_settleCapture h) .lane0) .lane1
  unfold execLaneSwap at hexec
  dsimp only at hexec
  split at hexec <;> cases hexec
  · unfold State.swapAtEntry
    split
    · exact modeSound_leaveFifo (modeSound_begin howed n)
    · exact modeSound_begin howed n
  · exact modeSound_finishCommands (modeSound_swapLane (modeSound_pass howed n) l)

/-- Every command keeps the promises of the lane modes. -/
theorem modeSound_exec {c : Instr} {s t : State} (hs : s.ModeSound) (h : exec c s = .next t) : t.ModeSound := by
  have hbegin (n) := modeSound_begin hs n
  have hport (n a d be) : ((s.begin n).acceptWrite a d be).ModeSound := modeSound_acceptWrite (hbegin n) a d be
  cases c with
  | laneSwap n l => exact modeSound_execLaneSwap hs h
  | por n => cases h; exact modeSound_assertPor _
  | porRelease n f => cases h; exact modeSound_releasePor (hbegin n) f
  | crstn n => cases h; exact modeSound_assertWarm _
  | crstnRelease n => cases h; exact modeSound_releaseWarm (hbegin n)
  | uPortRead n a be => cases h; exact modeSound_acceptRead (hbegin n) a be
  | uPortWrite n a d be => cases h; exact hport n a d be
  | argumentWordWrite n i d be => cases h; exact hport n _ d be
  | consumerIndexWrite n d => cases h; exact hport n _ d _
  | stagingWrite n i d be => cases h; exact hport n _ d be
  | scanRingWrite n l p w d be => cases h; exact hport n _ d be
  | laneStart n u f q => cases h; exact hport n _ _ _
  | laneHold n u f q => cases h; exact hport n _ _ _
  | laneResume n u f q => cases h; exact hport n _ _ _
  | laneStop n u f q => cases h; exact hport n _ _ _
  | tableCommit n u f q => cases h; exact hport n _ _ _
  | valveTest n u f q => cases h; exact hport n _ _ _
  | statsSnapshot n u f q => cases h; exact hport n _ _ _
  | captureState n u f q => cases h; exact hport n _ _ _
  | badCommand n k u f q => cases h; exact hport n _ _ _
  | entryLeavesFifo n => cases h; exact modeSound_leaveFifo (hbegin n)
  | stallLimit n => cases h; exact modeSound_stallEnds (hbegin n)
  | triggerEdge n l => cases h; exact modeSound_edge (hbegin n) l
  | tick n l => cases h; exact modeSound_tickFalls (hbegin n) l
  | coastDeadline n l => cases h; exact modeSound_deadlineFalls (hbegin n) l
  | syntheticLineStart n l => cases h; exact modeSound_syntheticFalls (hbegin n) l
  | boostTimer n l v => cases h; exact modeSound_ejectorEvent (hbegin n) (Lane.kept_boostExpires _ _ v) (tame_boostExpires _ _ v)
  | carrierPeriod n l v =>
    cases h; exact modeSound_ejectorEvent (hbegin n) (Lane.kept_carrierTurns _ _ v) (tame_carrierTurns _ _ v)
  | maxOnGuard n l v =>
    cases h; exact modeSound_ejectorEvent (hbegin n) (Lane.kept_guardTrips _ l _ v) (tame_guardTrips _ l _ v)
  | recoveryEnd n l v =>
    cases h; exact modeSound_ejectorEvent (hbegin n) (Lane.kept_recoveryEnds _ _ v) (tame_recoveryEnds _ _ v)
  | testDurationEnd n l v =>
    cases h; exact modeSound_ejectorEvent (hbegin n) (Lane.kept_testEnds _ _ v) (tame_testEnds _ _ v)
  | supplyDrop n l => cases h; exact modeSound_supplyFalls (hbegin n) l
  | supplyReturn n l => cases h; exact modeSound_supplyRises (hbegin n) l
  | scanEnd n => cases h; exact modeSound_finishCommands (modeSound_endScan (hbegin n))
  | drainCondition n l => cases h; exact modeSound_pass (modeSound_settleDrain (modeSound_settleCapture hs) l) n
  | captureSnapshot n => cases h; exact modeSound_pass (modeSound_settleCapture hs) n
  | writerUnitChoice n => cases h; exact (hbegin n).of_lanes (fun l => by cases l <;> rfl) (fun _ => rfl) id
  | writerWordHanded n => cases h; exact modeSound_handWord (hbegin n)
  | sportArbitration n => cases h; exact modeSound_setPtu (hbegin n) _
  | controllerAccessDone n => cases h; exact modeSound_accessCompletes (hbegin n)
  | partWriteDone n => cases h; exact modeSound_partCompletes (hbegin n)

theorem modeSound_step {s t : State} (hs : s.ModeSound) (h : step s = .next t) : t.ModeSound := by
  obtain ⟨-, rfl⟩ | ⟨c, rest, -, hexec⟩ := step_cases h
  · exact hs.of_lanes (fun l => by cases l <;> rfl) (fun _ => rfl) id
  · refine modeSound_exec ?_ hexec
    exact hs.of_lanes (fun l => by cases l <;> rfl) (fun _ => rfl) id

end Sys2Proof.Machine

/-! ## Proofs: which rows change the mode of a lane, and by which transition (R155, O57, second part) -/
namespace Sys2Proof.Machine

/-- No lane's mode changes. -/
def State.ModesStay (s t : State) : Prop := ∀ l, (t.lane l).mode = (s.lane l).mode

/-- From one mode to another at the ticks of a line: a lane in DRAIN can enter HOLD. -/
def LaneMode.drainsTo (m m' : LaneMode) : Prop := m' = m ∨ m = .drain ∧ m' = .hold

theorem modesStay_of_lanes {s t : State} (h : ∀ l, t.lane l = s.lane l) : s.ModesStay t := fun l => by rw [h l]

theorem modesStay_of_worked_empty {s t : State} (h : s.Worked ∅ t) : s.ModesStay t :=
  modesStay_of_lanes fun l => h.other l (Set.notMem_empty l)

theorem modesStay_of_lane {s t : State} {l : LaneId} (h : s.Worked {l} t) (hl : (t.lane l).mode = (s.lane l).mode) :
    s.ModesStay t := fun m => by
  by_cases hm : m = l
  · exact hm ▸ hl
  · rw [h.other m hm]

theorem State.ModesStay.trans {s t u : State} (h : s.ModesStay t) (k : t.ModesStay u) : s.ModesStay u :=
  fun l => (k l).trans (h l)

/-! ### The end of an intake event with no command pending -/

/-- With no command pending an intake event ends with its own work. -/
theorem endIntake_of_slot_none {s : State} (hslot : s.cmu.slot = none) (l : LaneId) (x : Lane) :
    s.endIntake l x = s.closeIntake l x :=
  finishCommands_same fun _ => (worked_closeIntake s (Set.mem_singleton l) x).slot.trans hslot

theorem closeIntake_keeps (s : State) (l : LaneId) (x : Lane) :
    ((s.closeIntake l x).lane l).mode = (s.lane l).mode ∧ ((s.closeIntake l x).lane l).clock = (s.lane l).clock := by
  rw [closeIntake_lane, evaluated_mode, evaluated_clock]
  exact ⟨rfl, rfl⟩

theorem trackExpected_keeps (x : Lane) (n : Nat) : (x.trackExpected n).mode = x.mode ∧ (x.trackExpected n).clock = x.clock := by
  induction n generalizing x with
  | zero => exact ⟨rfl, rfl⟩
  | succ n ih =>
    unfold Lane.trackExpected
    split
    · exact ih _
    · exact ⟨rfl, rfl⟩

/-- A line start at the LIU keeps the lane's mode and its clock. -/
theorem intakeLineStart_keeps (s : State) (l : LaneId) :
    ((s.intakeLineStart l).lane l).mode = (s.lane l).mode ∧ ((s.intakeLineStart l).lane l).clock = (s.lane l).clock := by
  have hexpire (n : Nat) : ((s.expire l n).lane l).mode = (s.lane l).mode ∧ ((s.expire l n).lane l).clock = (s.lane l).clock := by
    obtain ⟨k, -, hk⟩ := handed_expire s l n
    exact ⟨hk.mode, hk.clock⟩
  unfold State.intakeLineStart
  dsimp only
  split
  · exact ⟨rfl, rfl⟩
  · exact hexpire _
  · exact hexpire _
  · rw [lane_modLane_self]
    exact trackExpected_keeps _ _
  · exact ⟨rfl, rfl⟩

/-- A line start with the end of its event keeps the lane's mode and its clock, with no command pending. -/
theorem reachIntake_keeps {s : State} (hslot : s.cmu.slot = none) (l : LaneId) :
    ((s.reachIntake l).lane l).mode = (s.lane l).mode ∧ ((s.reachIntake l).lane l).clock = (s.lane l).clock := by
  have hslot' : (s.intakeLineStart l).cmu.slot = none := (worked_intakeLineStart s (Set.mem_singleton l)).slot.trans hslot
  rw [State.reachIntake, endIntake_of_slot_none hslot']
  have hclose := closeIntake_keeps (s.intakeLineStart l) l (s.lane l)
  have hstart := intakeLineStart_keeps s l
  exact ⟨hclose.1.trans hstart.1, hclose.2.trans hstart.2⟩

theorem modesStay_judgeEntry (s : State) (e : FifoEntry) : s.ModesStay (s.judgeEntry e) := by
  refine modesStay_of_lane (worked_judgeEntry s e) ?_
  have hsorting : ((s.judgeSorting (ringLane e.offset) e).lane (ringLane e.offset)).mode = (s.lane (ringLane e.offset)).mode := by
    obtain ⟨n, -, h⟩ := handed_judgeSorting s (ringLane e.offset) e
    exact h.mode
  have hstray (l : LaneId) : ((s.modLane l Lane.stray).lane l).mode = (s.lane l).mode := by
    rw [lane_modLane_self]
    rfl
  unfold State.judgeEntry
  dsimp only
  split
  · rfl
  · exact hsorting
  · exact hsorting
  · unfold State.judgeHolding
    split
    · unfold State.trackedHeader
      exact (handed_judgedHeader fun n => handed_setExpected s _ _).mode
    · exact hstray _
    all_goals rfl
  · rfl

theorem modesStay_leaveFifo {s : State} (hslot : s.cmu.slot = none) : s.ModesStay s.leaveFifo := by
  unfold State.leaveFifo
  split
  · rename_i e rest _
    have hleft : s.ModesStay { s with ptu := s.ptu.leave rest } := modesStay_of_lanes fun l => by cases l <;> rfl
    have hwork := worked_judgeEntry { s with ptu := s.ptu.leave rest } e
    rw [endIntake_of_slot_none (hwork.slot.trans hslot)]
    exact (hleft.trans (modesStay_judgeEntry _ e)).trans (modesStay_of_lane (worked_closeIntake _ (Set.mem_singleton _) _)
      (closeIntake_keeps _ _ _).1)
  · exact fun _ => rfl

/-! ### The clock -/

/-- Work on lane `l` that keeps its mode, but for a HOLD entry at a tick. -/
structure State.TicksAt (l : LaneId) (s t : State) : Prop where
  work : s.Worked {l} t
  mode : (s.lane l).mode.drainsTo (t.lane l).mode

theorem LaneMode.drainsTo.trans {m m' m'' : LaneMode} (h : m.drainsTo m') (k : m'.drainsTo m'') : m.drainsTo m'' := by
  rcases h with rfl | ⟨rfl, rfl⟩
  · exact k
  · rcases k with rfl | ⟨hdrain, -⟩
    · exact .inr ⟨rfl, rfl⟩
    · cases hdrain

theorem State.TicksAt.trans {l : LaneId} {s t u : State} (h : s.TicksAt l t) (k : t.TicksAt l u) : s.TicksAt l u :=
  ⟨h.work.trans k.work, h.mode.trans k.mode⟩

theorem ticksAt_modLane {s : State} {l : LaneId} {f : Lane → Lane} (hkept : (s.lane l).Kept (f (s.lane l)))
    (hmode : (f (s.lane l)).mode = (s.lane l).mode) : s.TicksAt l (s.modLane l f) :=
  ⟨worked_modLane (Set.mem_singleton l) hkept, .inl (by rw [lane_modLane_self, hmode])⟩

theorem ticksAt_modClock (s : State) (l : LaneId) {f : Clock → Clock} (hk : ∀ c, (f c).k = c.k) :
    s.TicksAt l (s.modClock l f) := ticksAt_modLane (Lane.kept_clock _ (hk _)) rfl

theorem ticksAt_record (s : State) (l : LaneId) (r : Record) : s.TicksAt l (s.record r) :=
  ⟨worked_record s r, .inl (by rw [record_lane])⟩

theorem ticksAt_remainingTicks (s : State) (l : LaneId) : s.TicksAt l (s.remainingTicks l) :=
  ⟨worked_remainingTicks s (Set.mem_singleton l), (tickedOn_ticksFrom s l _ _).mode⟩

theorem ticksAt_beginLine (s : State) (l : LaneId) (n : Nat) : s.TicksAt l (s.beginLine l n) :=
  ⟨worked_beginLine s (Set.mem_singleton l) n, (tickedOn_beginLine s l n).mode⟩

theorem ticksAt_reachedTicks (s : State) (l : LaneId) (n : Nat) : s.TicksAt l (s.reachedTicks l n) :=
  ⟨worked_reachedTicks s (Set.mem_singleton l) n, (tickedOn_reachedTicks s l n).mode⟩

section
variable {s : State} (hslot : s.cmu.slot = none) (l : LaneId)
include hslot

theorem State.TicksAt.thenIntake {l : LaneId} {t : State} (h : s.TicksAt l t) :
    (s.lane l).mode.drainsTo ((t.reachIntake l).lane l).mode := by
  rw [(reachIntake_keeps (h.work.slot.trans hslot) l).1]
  exact h.mode

/-- An edge keeps the mode of its lane, but for a HOLD entry at a tick it takes. -/
theorem edge_mode : (s.lane l).mode.drainsTo ((s.edge l).lane l).mode := by
  have hglitch := (ticksAt_modLane (s := s) (l := l) (Lane.kept_glitch _) rfl).mode
  unfold State.edge
  dsimp only
  split
  · exact .inl rfl
  · exact (((ticksAt_beginLine s l s.now).trans (ticksAt_modClock (f := fun c => c.lock s.now) _ l fun _ => rfl)).trans
      (ticksAt_record _ l _)).thenIntake hslot
  · split
    · exact hglitch
    · exact ((((ticksAt_remainingTicks s l).trans (ticksAt_modLane (Lane.kept_measureEdge _ _) (measureEdge_keeps _ _).1)).trans
        (ticksAt_beginLine _ l s.now)).trans (ticksAt_modClock
          (f := fun c => { c with coastDeadline := some (c.deadlineAfter s.now) }) _ l fun _ => rfl)).thenIntake hslot
  · split
    · exact hglitch
    · split
      · exact ((((ticksAt_remainingTicks s l).trans (ticksAt_beginLine _ l s.now)).trans
          (ticksAt_modClock (f := fun c => c.lock s.now) _ l fun _ => rfl)).trans (ticksAt_record _ l _)).thenIntake hslot
      · exact ((ticksAt_modClock (f := fun c => { c.lock s.now with lineStart := s.now }) s l fun _ => rfl).trans (ticksAt_record _ l _)).mode
  · exact .inl rfl

theorem State.TicksAt.thenSynthetic {l : LaneId} {t : State} (h : s.TicksAt l t) (n : Nat) :
    (s.lane l).mode.drainsTo ((t.syntheticStart l n).lane l).mode :=
  ((((h.trans (ticksAt_remainingTicks t l)).trans (ticksAt_beginLine _ l n)).trans (ticksAt_reachedTicks _ l 15)).trans
    (ticksAt_modClock (f := fun c => { c with episode := c.episode + 1, nextSynthetic := some (n + c.period) }) _ l
      fun _ => rfl)).thenIntake hslot

theorem syntheticStart_mode (n : Nat) : (s.lane l).mode.drainsTo ((s.syntheticStart l n).lane l).mode :=
  State.TicksAt.thenSynthetic hslot ⟨.refl s, .inl rfl⟩ n

theorem deadlineFalls_mode : (s.lane l).mode.drainsTo ((s.deadlineFalls l).lane l).mode := by
  unfold State.deadlineFalls
  dsimp only
  split
  · exact ((ticksAt_modLane (Lane.kept_enterCoasting _) rfl).trans (ticksAt_record _ l _)).thenSynthetic hslot _
  · exact .inl rfl

/-- A synthetic time takes its lane to FAULT from RUN, DRAIN or HOLD, or is a line start. -/
theorem syntheticFalls_mode (hs : s.ModeSound) :
    (s.lane l).mode.drainsTo ((s.syntheticFalls l).lane l).mode ∨
      ((s.syntheticFalls l).lane l).mode = .fault ∧ (s.lane l).mode ≠ .off ∧ (s.lane l).mode ≠ .fault := by
  unfold State.syntheticFalls
  dsimp only
  split
  · split
    · rename_i hdue
      split
      · refine .inr ⟨?_, (hs.sound l).mode_of_runs (by rw [hdue.1]; nofun)⟩
        rw [State.loseClock, faultLane_lane, stopBlocks_mode]
      · exact .inl (syntheticStart_mode hslot l _)
    · exact .inl (.inl rfl)
  · exact .inl (.inl rfl)

end

/-! ### Commands -/

/-- What a command does to the mode of a lane: nothing, or a transition to RUN, DRAIN or OFF of the lane it names. -/
def CommandMode (r : CommandRecord) (s t : State) (l : LaneId) : Prop :=
  (t.lane l).mode = (s.lane l).mode ∨
    laneOfField r.laneField = some l ∧ ((s.lane l).mode, (t.lane l).mode) ∈ modeTable ∧
      ((t.lane l).mode = .run ∨ (t.lane l).mode = .drain ∨ (t.lane l).mode = .off)

theorem commandMode_of_stay {r : CommandRecord} {s t : State} (h : s.ModesStay t) (l : LaneId) : CommandMode r s t l := .inl (h l)

theorem modesStay_answer (s : State) (r : CommandRecord) (c : CommandStatus) (d : Word) : s.ModesStay (s.answer r c d) :=
  modesStay_of_lanes (record_lane s _)

/-- A command that names its lane: what it does there, and that it leaves the other. -/
theorem commandMode_withLane {r : CommandRecord} {s : State} {f : LaneId → State} {l : LaneId}
    (hf : ∀ m, laneOfField r.laneField = some m → s.ModesStay (f m) ∨ s.Worked {m} (f m) ∧
      ((s.lane m).mode, ((f m).lane m).mode) ∈ modeTable ∧
        (((f m).lane m).mode = .run ∨ ((f m).lane m).mode = .drain ∨ ((f m).lane m).mode = .off)) :
    CommandMode r s (s.withLane r f) l := by
  unfold State.withLane
  split
  · rename_i m hm
    obtain hstay | ⟨hwork, htable, hmode⟩ := hf m hm
    · exact .inl (hstay l)
    · by_cases hl : l = m
      · exact .inr ⟨hl ▸ hm, hl ▸ htable, hl ▸ hmode⟩
      · exact .inl (by rw [hwork.other l hl])
  · exact .inl (modesStay_answer s _ _ _ l)

/-- Every mode but OFF itself goes to OFF. -/
theorem mem_modeTable_off {m : LaneMode} (h : m ≠ .off) : (m, LaneMode.off) ∈ modeTable := by
  cases m <;> first | exact absurd rfl h | decide

theorem answer_lane (s : State) (r : CommandRecord) (c : CommandStatus) (d : Word) (l : LaneId) :
    (s.answer r c d).lane l = s.lane l := record_lane s _ l

theorem commandMode_executeCommand (s : State) (r : CommandRecord) (l : LaneId) : CommandMode r s (s.executeCommand r) l := by
  have hmem (m : LaneId) := Set.mem_singleton m
  have hstay (c : CommandStatus) (d : Word) := modesStay_answer s r c d
  unfold State.executeCommand
  repeat' split
  · refine commandMode_withLane fun m _ => ?_
    repeat' split
    all_goals first | exact .inl (hstay _ _) | skip
    rename_i hoff _
    refine .inr ⟨(worked_startLane s (hmem m) _ _ _).trans (worked_answer _ _ _ _), ?_⟩
    rw [answer_lane, startLane_lane, not_not.1 hoff]
    exact ⟨(by decide : (LaneMode.off, LaneMode.run) ∈ modeTable), .inl rfl⟩
  · refine commandMode_withLane fun m _ => ?_
    split
    · rename_i hrun
      refine .inr ⟨(worked_holdLane s (hmem m) _).trans (worked_answer _ _ _ _), ?_⟩
      rw [answer_lane, holdLane_lane, hrun]
      exact ⟨(by decide : (LaneMode.run, LaneMode.drain) ∈ modeTable), .inr (.inl rfl)⟩
    all_goals exact .inl (hstay _ _)
  · refine commandMode_withLane fun m _ => ?_
    split
    · rename_i hhold
      refine .inr ⟨(worked_resumeLane s (hmem m) _).trans (worked_answer _ _ _ _), ?_⟩
      rw [answer_lane, resumeLane_lane, hhold]
      exact ⟨(by decide : (LaneMode.hold, LaneMode.run) ∈ modeTable), .inl rfl⟩
    · rename_i hdrain
      refine .inr ⟨(worked_resumeLane s (hmem m) _).trans (worked_answer _ _ _ _), ?_⟩
      rw [answer_lane, resumeLane_lane, hdrain]
      exact ⟨(by decide : (LaneMode.drain, LaneMode.run) ∈ modeTable), .inl rfl⟩
    all_goals exact .inl (hstay _ _)
  · refine commandMode_withLane fun m _ => ?_
    split
    · exact .inl (hstay _ _)
    · rename_i hon
      refine .inr ⟨(worked_stopLane s (hmem m) _).trans (worked_answer _ _ _ _), ?_⟩
      rw [answer_lane, stopLane_lane, stopBlocks_mode]
      exact ⟨mem_modeTable_off hon, .inr (.inr rfl)⟩
  · unfold State.commandCommit
    split
    · exact commandMode_of_stay (hstay _ _) l
    · exact commandMode_of_stay (modesStay_of_lanes fun l => by cases l <;> rfl) l
  · refine commandMode_withLane fun m _ => .inl ?_
    dsimp only
    split
    · split
      · exact hstay _ _
      · split
        · exact (modesStay_of_lane (worked_modLane (hmem m) (Lane.kept_startTest _ _ _ _)) (by rw [lane_modLane_self]; rfl)).trans
            (modesStay_answer _ _ _ _)
        · exact hstay _ _
    · exact hstay _ _
  · unfold State.commandStats
    split
    · exact commandMode_of_stay (hstay _ _) l
    · have howed := modesStay_of_worked_empty (((((((worked_execute s r).trans (worked_commonWaits _)).trans
        (worked_takeSnapshot _ .lane0 .command)).trans (worked_takeSnapshot _ .lane1 .command)).trans
        (worked_owe _ .lane0)).trans (worked_owe _ .lane1)))
      have hclear (t : State) (m : LaneId) : t.ModesStay (t.modLane m fun x => { x with counters := {} }) :=
        modesStay_of_lane (worked_modLane (hmem m) (Lane.kept_clearCounters _)) (by rw [lane_modLane_self])
      dsimp only
      split
      · exact commandMode_of_stay (howed.trans ((hclear _ .lane0).trans (hclear _ .lane1))) l
      · exact commandMode_of_stay howed l
  · refine commandMode_withLane fun m _ => .inl ?_
    exact modesStay_of_worked_empty ((worked_execute s r).trans (worked_beginCapture _ m))
  · exact commandMode_of_stay (hstay _ _) l

/-- A go word executes a command only in READY, and else changes no lane. -/
theorem commandMode_goWordArrives (s : State) (g : Word) (l : LaneId) :
    CommandMode (s.cmu.recordOf g) s (s.goWordArrives g) l := by
  unfold State.goWordArrives
  dsimp only
  split
  · exact commandMode_executeCommand _ _ l
  · split
    · exact .inl (by cases l <;> rfl)
    · exact .inl (by cases l <;> rfl)

/-! ### Writes -/

theorem sortOffset_eq_goWord {o : FrameOffset} (h : sortOffset o = .goWord) : o.toNat = 7 := by
  unfold sortOffset at h
  repeat' split at h
  all_goals first | assumption | cases h

/-- An observed write changes a mode only as a full write to the go word. -/
theorem observe_mode {s : State} (hslot : s.cmu.slot = none) (o : FrameOffset) (d : Word) (be : Enables) (l : LaneId)
    (h : ((s.observe o d be).lane l).mode ≠ (s.lane l).mode) :
    o.toNat = 7 ∧ be = 0xF ∧ CommandMode (s.cmu.recordOf d) s (s.observe o d be) l := by
  revert h
  unfold State.observe
  split
  · exact fun h => absurd rfl h
  · exact fun h => absurd (by cases l <;> rfl) h
  · rename_i hgo
    unfold State.goWritten
    split
    · rename_i hfull
      exact fun _ => ⟨sortOffset_eq_goWord hgo, by simpa [fullWrite, fullEnables] using hfull, commandMode_goWordArrives s d l⟩
    · exact fun h => absurd rfl h
  · unfold State.consumerWritten
    split
    · exact fun h => absurd (by cases l <;> rfl) h
    · exact fun h => absurd rfl h
  · rename_i i _
    intro h
    have hmerged : s.ModesStay (s.mergeStaged i d be) := modesStay_of_lanes fun l => by cases l <;> rfl
    have hstaged : s.ModesStay (s.stagingWritten i d be) ∧ (s.stagingWritten i d be).cmu.slot = none := by
      obtain hs | ⟨c, e, hs⟩ := stagingWritten_cases s i d be <;> rw [hs]
      · exact ⟨hmerged, hslot⟩
      · have hwork := worked_endCommit (L := ∅) (s.mergeStaged i d be) c e
        exact ⟨hmerged.trans (modesStay_of_worked_empty hwork), hwork.slot.trans hslot⟩
    rw [finishCommands_same fun _ => hstaged.2] at h
    exact absurd (hstaged.1 l) h
  · unfold State.enterFifo
    split <;> exact fun h => absurd (by cases l <;> rfl) h

/-- A write at the U-port changes a mode only as a full write to the go word of the selected frame. -/
theorem acceptWrite_mode {s : State} (hslot : s.cmu.slot = none) (a : WordAddr) (d : Word) (be : Enables) (l : LaneId)
    (h : ((s.acceptWrite a d be).lane l).mode ≠ (s.lane l).mode) :
    a.toNat = 262144 * s.ptu.frameSelect.toNat + 7 ∧ be = 0xF ∧
      CommandMode (s.cmu.recordOf d) s (s.acceptWrite a d be) l := by
  revert h
  have hheld (b : Access) : (s.hold b).lane l = s.lane l := by cases l <;> rfl
  unfold State.acceptWrite
  split
  · exact fun h => absurd rfl h
  · unfold State.takeWrite
    dsimp only
    split
    · rename_i hwatched
      simp only [Bool.and_eq_true, beq_iff_eq] at hwatched
      intro h
      rw [← hheld ⟨a, true, d, be⟩] at h
      obtain ⟨hoffset, hfull, hmode⟩ := observe_mode (s := s.hold _) hslot _ d be l h
      refine ⟨?_, hfull, ?_⟩
      · have hframe := congrArg BitVec.toNat hwatched.2
        have ha := a.isLt
        simp only [frameOf, offsetOf, BitVec.extractLsb'_toNat, Nat.shiftRight_eq_div_pow] at hframe hoffset
        omega
      · unfold CommandMode at hmode ⊢
        rwa [hheld] at hmode
    · exact fun h => absurd (by rw [hheld]) h

theorem scanRingOffset_ne (l : LaneId) (p : BitVec 4) (w : BitVec 12) : (scanRingOffset l p w).toNat ≠ 7 := by
  have hp := p.isLt
  have hw := w.isLt
  have hat (r : BitVec 2) (hr : 2 ≤ r.toNat) : (r ++ p ++ w).toNat ≠ 7 := by
    rw [toNat_append, toNat_append]
    omega
  cases l
  · exact hat 2#2 (by decide)
  · exact hat 3#2 (by decide)

theorem mem_modeTable_fault {m : LaneMode} (hoff : m ≠ .off) (hfault : m ≠ .fault) : (m, LaneMode.fault) ∈ modeTable := by
  cases m <;> first | exact absurd rfl hoff | exact absurd rfl hfault | decide

/-! ### Rows that leave every mode -/

theorem flushPath_lane (s : State) (m : LaneId) : s.flushPath.lane m = s.lane m := by
  have hpart : s.flushPart.lane m = s.lane m := by
    unfold State.flushPart
    split <;> cases m <;> rfl
  have haccess (t : State) : t.flushAccess.lane m = t.lane m := by
    unfold State.flushAccess
    split <;> cases m <;> rfl
  refine .trans ?_ ((haccess _).trans hpart)
  cases m <;> rfl

theorem releasePor_lane (s : State) (f : BitVec 2) (m : LaneId) : (s.releasePor f).lane m = s.lane m := by
  unfold State.releasePor
  split
  · refine ((worked_resume _ _).other m (Set.notMem_empty m)).trans ?_
    refine .trans ?_ (flushPath_lane s m)
    cases m <;> rfl
  · rfl

theorem releaseWarm_lane (s : State) (m : LaneId) : s.releaseWarm.lane m = s.lane m := by
  unfold State.releaseWarm
  split
  · refine ((worked_resume _ _).other m (Set.notMem_empty m)).trans ?_
    refine .trans ?_ (flushPath_lane s m)
    cases m <;> rfl
  · rfl

theorem acceptRead_lane (s : State) (a : WordAddr) (be : Enables) (m : LaneId) : (s.acceptRead a be).lane m = s.lane m := by
  unfold State.acceptRead
  split
  · rfl
  · cases m <;> rfl

theorem modesStay_stallEnds (s : State) : s.ModesStay s.stallEnds := by
  unfold State.stallEnds
  split
  · split
    · have hended : s.ModesStay { s with ptu := { s.ptu with stall := none } } := modesStay_of_lanes fun l => by cases l <;> rfl
      exact hended.trans (modesStay_of_lane (worked_modLane (Set.mem_singleton _) (Lane.kept_loseWrite _))
        (by rw [lane_modLane_self]; rfl))
    · exact fun _ => rfl
  · exact fun _ => rfl

theorem tickFalls_mode (s : State) (l : LaneId) : ((s.tickFalls l).lane l).mode = (s.lane l).mode := by
  unfold State.tickFalls
  dsimp only
  split
  · exact (takeTick_keeps s l _).1
  · rfl

theorem dropSupply_mode (x : Lane) (l : LaneId) (now : Nat) : (x.dropSupply l now).1.mode = x.mode := by rw [dropSupply_eq]

theorem supplyFalls_mode (s : State) (l : LaneId) : ((s.supplyFalls l).lane l).mode = (s.lane l).mode := by
  unfold State.supplyFalls
  split
  · rfl
  · split
    · rw [lane_modLane_self]
    · rw [ejectorEvent_lane, evaluated_mode, dropSupply_mode]

theorem supplyRises_mode (s : State) (l : LaneId) : ((s.supplyRises l).lane l).mode = (s.lane l).mode := by
  unfold State.supplyRises
  split
  · rfl
  · split
    · rw [lane_modLane_self]
    · rw [ejectorEvent_lane, evaluated_mode]
      rfl

theorem modesStay_endScan (s : State) : s.ModesStay s.endScan := by
  have hatOnce (t : State) (l : LaneId) : t.ModesStay (t.swapAtOnce l) := by
    unfold State.swapAtOnce
    split
    · exact modesStay_of_lane (worked_swapLane t (Set.mem_singleton l)) (swapLane_keeps t l).1
    · exact fun _ => rfl
  have hended (c : CommandStatus) (d : Word) : s.ModesStay (s.endCommit c d) := modesStay_of_worked_empty (worked_endCommit _ _ _)
  unfold State.endScan
  split
  · exact fun _ => rfl
  · exact fun _ => rfl
  · split
    · dsimp only
      split
      · exact hended _ _
      · split
        · exact hended _ _
        · exact (modesStay_of_worked_empty (worked_setCommit s _)).trans ((hatOnce _ _).trans (hatOnce _ _))
    · exact fun _ => rfl

theorem handWord_lane (s : State) (m : LaneId) : s.handWord.lane m = s.lane m := by
  unfold State.handWord
  repeat' split
  all_goals cases m <;> rfl

theorem accessCompletes_lane (s : State) (m : LaneId) : s.accessCompletes.lane m = s.lane m := by
  unfold State.accessCompletes
  split <;> cases m <;> rfl

/-- With no command pending the report of a part write changes no lane. -/
theorem partCompletes_lane {s : State} (hslot : s.cmu.slot = none) (m : LaneId) : s.partCompletes.lane m = s.lane m := by
  have hreported {t : State} (ht : t.cmu.slot = none) : t.wordReported.lane m = t.lane m := by
    unfold State.wordReported
    split
    · split
      · have hwork (k : UnitKind) := worked_completeUnit t k
        rw [finishCommands_same fun _ => (hwork _).slot.trans ht]
        exact (hwork _).other m (Set.notMem_empty m)
      · cases m <;> rfl
    · rfl
  unfold State.partCompletes
  split
  · rename_i o d _
    rw [hreported (t := ({ s with ptu := { s.ptu with sport := .free } } : State).carryPart o d) hslot, carryPart_lane]
    cases m <;> rfl
  · rfl
  · rfl

/-! ### Every row -/

/-- What may change the mode of a lane by a row: the statement's three causes. -/
def ModeCaused (s : State) (c : Instr) (l : LaneId) (before after : LaneMode) : Prop :=
  (before, after) ∈ modeTable ∧ (after = .fault → ∃ n, c = .syntheticLineStart n l) ∧
    (after = .hold → ∃ n, c = .triggerEdge n l ∨ c = .coastDeadline n l ∨ c = .syntheticLineStart n l) ∧
    (after = .run ∨ after = .drain ∨ after = .off →
      (∃ n, c = .por n ∨ c = .crstn n) ∧ after = .off ∨ (∃ n data, c = .uPortWrite n (frameAddress s 7) data 0xF) ∨
        ∃ n code u f q, f = laneFieldOf l ∧ ∃ p ∈ goRows n code u f q, c = p.2)

theorem modeCaused_of_drains {s : State} {c : Instr} {l : LaneId} {m m' : LaneMode} (h : m.drainsTo m') (hne : m' ≠ m)
    (hc : ∃ n, c = .triggerEdge n l ∨ c = .coastDeadline n l ∨ c = .syntheticLineStart n l) : ModeCaused s c l m m' := by
  obtain rfl | ⟨rfl, rfl⟩ := h
  · exact absurd rfl hne
  · exact ⟨by decide, nofun, fun _ => hc, nofun⟩

theorem laneFieldOf_of_laneOfField {f : BitVec 2} {l : LaneId} (h : laneOfField f = some l) : f = laneFieldOf l := by
  unfold laneOfField at h
  split at h
  · cases h; assumption
  · split at h
    · cases h; assumption
    · cases h

/-- The cause of a mode change by a go word, from what its command does. -/
theorem modeCaused_of_command {s t u : State} {c : Instr} {l : LaneId} {r : CommandRecord} (hsame : (u.lane l).mode = (s.lane l).mode)
    (h : CommandMode r u t l) (hne : (t.lane l).mode ≠ (s.lane l).mode)
    (hc : r.laneField = laneFieldOf l → (∃ n data, c = .uPortWrite n (frameAddress s 7) data 0xF) ∨
      ∃ n code u f q, f = laneFieldOf l ∧ ∃ p ∈ goRows n code u f q, c = p.2) :
    ModeCaused s c l (s.lane l).mode (t.lane l).mode := by
  unfold CommandMode at h
  rw [hsame] at h
  obtain h | ⟨hlane, htable, hmode⟩ := h
  · exact absurd h hne
  · refine ⟨htable, fun hf => ?_, fun hh => ?_, fun _ => .inr (hc (laneFieldOf_of_laneOfField hlane))⟩
    · simp [hf] at hmode
    · simp [hh] at hmode

section
variable {s : State} (hs : s.ModeSound) (hsettled : s.Settled) (hslot : s.cmu.slot = none) {l : LaneId}
include hslot

theorem slot_pass (n : Nat) : (s.pass n).cmu.slot = none := hslot

include hsettled

/-- A write row that is no go word's changes no mode. -/
theorem frameWrite_mode (n : Nat) (o : FrameOffset) (ho : o.toNat ≠ 7) (d : Word) (be : Enables) :
    (((s.begin n).acceptFrameWrite o d be).lane l).mode = (s.lane l).mode := by
  rw [begin_of_settled hsettled, ← pass_lane s n l]
  by_contra h
  have haddr := (acceptWrite_mode (slot_pass hslot n) _ d be l h).1
  rw [addressOf_toNat] at haddr
  omega

/-- A go word row names the lane it changes. -/
theorem goRow_mode (n : Nat) (code : BitVec 8) (u : BitVec 6) (f : BitVec 2) (q : BitVec 16) {c : Instr}
    (hc : ∃ p ∈ goRows n code u f q, c = p.2) (k : BitVec 8)
    (hne : (((s.begin n).acceptGoWord k u f q).lane l).mode ≠ (s.lane l).mode) :
    ModeCaused s c l (s.lane l).mode (((s.begin n).acceptGoWord k u f q).lane l).mode := by
  rw [begin_of_settled hsettled] at hne ⊢
  have hpass : ((s.pass n).lane l).mode = (s.lane l).mode := by rw [pass_lane]
  obtain ⟨-, -, hmode⟩ := acceptWrite_mode (slot_pass hslot n) _ (goWord k u f q) fullEnables l (by rw [hpass]; exact hne)
  refine modeCaused_of_command hpass hmode hne fun hfield => .inr ⟨n, code, u, f, q, ?_, hc⟩
  rw [← hfield]
  exact (goWord_fields k u f q).2.1.symm

include hs

/-- A row that changes the mode of a lane does so by one of its causes. -/
theorem modeCaused_of_exec {c : Instr} {t : State} (h : exec c s = .next t) (hne : (t.lane l).mode ≠ (s.lane l).mode) :
    ModeCaused s c l (s.lane l).mode (t.lane l).mode := by
  have hbegin (n) : s.begin n = s.pass n := begin_of_settled hsettled n
  have hpass (n) (m : LaneId) : ((s.pass n).lane m).mode = (s.lane m).mode := by rw [pass_lane]
  have hstays {n : Nat} (hstay : (s.pass n).ModesStay t) : ModeCaused s c l (s.lane l).mode (t.lane l).mode :=
    absurd ((hstay l).trans (hpass n l)) hne
  have hsame {n : Nat} (hlanes : ∀ m, t.lane m = (s.pass n).lane m) : ModeCaused s c l (s.lane l).mode (t.lane l).mode :=
    hstays (modesStay_of_lanes hlanes)
  have hreset (hoff : (t.lane l).mode = .off) (hc : ∃ n, c = .por n ∨ c = .crstn n) :
      ModeCaused s c l (s.lane l).mode (t.lane l).mode := by
    rw [hoff] at hne ⊢
    exact ⟨mem_modeTable_off hne.symm, nofun, nofun, fun _ => .inl ⟨hc, rfl⟩⟩
  have hother {n : Nat} {m : LaneId} (hwork : (s.pass n).Worked {m} t) : l = m := by
    by_contra hl
    rw [hwork.other l hl] at hne
    exact hne (hpass n l)
  have hvalve {n : Nat} {m : LaneId} {w : Lane × List Record} (hkept : ((s.pass n).lane m).Kept w.1)
      (hw : ((s.pass n).lane m).Tame w.1) (ht : t = (s.pass n).ejectorEvent m w) :
      ModeCaused s c l (s.lane l).mode (t.lane l).mode := by
    refine hstays (n := n) (ht ▸ modesStay_of_lane (worked_ejectorEvent hkept) ?_)
    rw [ejectorEvent_lane, evaluated_mode, hw.mode]
  have hticks {n : Nat} {m : LaneId} (hwork : (s.pass n).Worked {m} t)
      (hmode : ((s.pass n).lane m).mode.drainsTo (t.lane m).mode)
      (hc : ∃ n, c = .triggerEdge n m ∨ c = .coastDeadline n m ∨ c = .syntheticLineStart n m) :
      ModeCaused s c l (s.lane l).mode (t.lane l).mode := by
    obtain rfl := hother hwork
    rw [hpass] at hmode
    exact modeCaused_of_drains hmode hne hc
  obtain ⟨hcapture, hdrain, -⟩ := settle_parts hsettled
  cases c with
  | por n => cases h; exact hreset (by rw [assertPor_lane]; rfl) ⟨n, .inl rfl⟩
  | crstn n => cases h; exact hreset (by rw [assertWarm_lane]; rfl) ⟨n, .inr rfl⟩
  | porRelease n f => cases h; exact hsame (n := n) fun m => by rw [releasePor_lane, hbegin]
  | crstnRelease n => cases h; exact hsame (n := n) fun m => by rw [releaseWarm_lane, hbegin]
  | uPortRead n a be => cases h; exact hsame (n := n) fun m => by rw [acceptRead_lane, hbegin]
  | uPortWrite n a d be =>
    cases h
    rw [hbegin] at hne ⊢
    obtain ⟨haddr, rfl, hmode⟩ := acceptWrite_mode (slot_pass hslot n) a d be l (by rw [hpass]; exact hne)
    refine modeCaused_of_command (hpass n l) hmode hne fun _ => .inl ⟨n, d, ?_⟩
    rw [show a = frameAddress s 7 from BitVec.eq_of_toNat_eq (by
      have := a.isLt
      rw [haddr, frameAddress, BitVec.toNat_ofNat]
      exact (Nat.mod_eq_of_lt (by rw [pass_ptu] at haddr; omega)).symm)]
  | argumentWordWrite n i d be =>
    cases h
    have := i.isLt
    exact absurd (frameWrite_mode hsettled hslot n _ (by simp; omega) d be) hne
  | consumerIndexWrite n d => cases h; exact absurd (frameWrite_mode hsettled hslot n _ (by decide) d _) hne
  | stagingWrite n o d be =>
    cases h
    have := o.isLt
    exact absurd (frameWrite_mode hsettled hslot n _ (by simp; omega) d be) hne
  | scanRingWrite n m p w d be =>
    cases h
    exact absurd (frameWrite_mode hsettled hslot n _ (scanRingOffset_ne m p w) d be) hne
  | laneStart n u f q => cases h; exact goRow_mode hsettled hslot n 0 u f q ⟨(0x01, _), by simp [goRows], rfl⟩ _ hne
  | laneHold n u f q => cases h; exact goRow_mode hsettled hslot n 0 u f q ⟨(0x02, _), by simp [goRows], rfl⟩ _ hne
  | laneResume n u f q => cases h; exact goRow_mode hsettled hslot n 0 u f q ⟨(0x03, _), by simp [goRows], rfl⟩ _ hne
  | laneStop n u f q => cases h; exact goRow_mode hsettled hslot n 0 u f q ⟨(0x04, _), by simp [goRows], rfl⟩ _ hne
  | tableCommit n u f q => cases h; exact goRow_mode hsettled hslot n 0 u f q ⟨(0x10, _), by simp [goRows], rfl⟩ _ hne
  | valveTest n u f q => cases h; exact goRow_mode hsettled hslot n 0 u f q ⟨(0x20, _), by simp [goRows], rfl⟩ _ hne
  | statsSnapshot n u f q => cases h; exact goRow_mode hsettled hslot n 0 u f q ⟨(0x30, _), by simp [goRows], rfl⟩ _ hne
  | captureState n u f q => cases h; exact goRow_mode hsettled hslot n 0 u f q ⟨(0x31, _), by simp [goRows], rfl⟩ _ hne
  | badCommand n k u f q => cases h; exact goRow_mode hsettled hslot n k u f q ⟨(k, _), by simp [goRows], rfl⟩ _ hne
  | entryLeavesFifo n =>
    cases h
    rw [hbegin] at hne
    exact absurd ((modesStay_leaveFifo (slot_pass hslot n) l).trans (hpass n l)) hne
  | stallLimit n =>
    cases h
    rw [hbegin] at hne
    exact absurd ((modesStay_stallEnds _ l).trans (hpass n l)) hne
  | triggerEdge n m =>
    cases h
    rw [hbegin] at hticks ⊢
    exact hticks ((laneEvent_edge _ m).worked hslot) (edge_mode (slot_pass hslot n) m) ⟨n, .inl rfl⟩
  | tick n m =>
    cases h
    rw [hbegin] at hstays ⊢
    exact hstays (modesStay_of_lane (worked_tickFalls _ m) (tickFalls_mode _ m))
  | coastDeadline n m =>
    cases h
    rw [hbegin] at hticks ⊢
    exact hticks ((laneEvent_deadlineFalls _ m).worked hslot) (deadlineFalls_mode (slot_pass hslot n) m) ⟨n, .inr (.inl rfl)⟩
  | syntheticLineStart n m =>
    cases h
    rw [hbegin] at hticks hother hne ⊢
    have hwork := (laneEvent_syntheticFalls (s.pass n) m).worked hslot
    obtain hmode | ⟨hfault, hoff, hnot⟩ := syntheticFalls_mode (slot_pass hslot n) m (modeSound_pass hs n)
    · exact hticks hwork hmode ⟨n, .inr (.inr rfl)⟩
    · obtain rfl := hother hwork
      rw [hfault]
      rw [hpass] at hoff hnot
      exact ⟨mem_modeTable_fault hoff hnot, fun _ => ⟨n, rfl⟩, nofun, nofun⟩
  | boostTimer n m v =>
    cases h
    rw [hbegin] at hvalve ⊢
    exact hvalve (Lane.kept_boostExpires _ _ v) (tame_boostExpires _ _ v) rfl
  | carrierPeriod n m v =>
    cases h
    rw [hbegin] at hvalve ⊢
    exact hvalve (Lane.kept_carrierTurns _ _ v) (tame_carrierTurns _ _ v) rfl
  | maxOnGuard n m v =>
    cases h
    rw [hbegin] at hvalve ⊢
    exact hvalve (Lane.kept_guardTrips _ m _ v) (tame_guardTrips _ m _ v) rfl
  | recoveryEnd n m v =>
    cases h
    rw [hbegin] at hvalve ⊢
    exact hvalve (Lane.kept_recoveryEnds _ _ v) (tame_recoveryEnds _ _ v) rfl
  | testDurationEnd n m v =>
    cases h
    rw [hbegin] at hvalve ⊢
    exact hvalve (Lane.kept_testEnds _ _ v) (tame_testEnds _ _ v) rfl
  | supplyDrop n m =>
    cases h
    rw [hbegin] at hstays ⊢
    exact hstays (modesStay_of_lane (worked_supplyFalls _ m) (supplyFalls_mode _ m))
  | supplyReturn n m =>
    cases h
    rw [hbegin] at hstays ⊢
    exact hstays (modesStay_of_lane (worked_supplyRises _ m) (supplyRises_mode _ m))
  | scanEnd n =>
    cases h
    rw [hbegin] at hstays ⊢
    refine hstays (n := n) ?_
    rw [State.scanEnds, finishCommands_same fun _ => (worked_endScan _).slot.trans (slot_pass hslot n)]
    exact modesStay_endScan _
  | laneSwap n m =>
    refine hstays (n := n) ?_
    have hexec : execLaneSwap n m s = .next t := h
    cases hsorting : (s.lane m).mode.sorting with
    | true =>
      rw [execLaneSwap_of_settled n hsettled hsorting] at hexec
      split at hexec <;> cases hexec
      · rw [hbegin]
        exact modesStay_leaveFifo (slot_pass hslot n)
      · exact fun _ => rfl
    | false =>
      simp only [execLaneSwap, hcapture, hdrain, hsorting, Bool.false_eq_true, if_false] at hexec
      cases hexec
      rw [State.swapOutside, finishCommands_same fun _ => (worked_swapLane _ (Set.mem_singleton m)).slot.trans (slot_pass hslot n)]
      exact modesStay_of_lane (worked_swapLane _ (Set.mem_singleton m)) (swapLane_keeps _ m).1
  | drainCondition n m =>
    cases h
    rw [hcapture, hdrain] at hne
    exact absurd (hpass n l) hne
  | captureSnapshot n =>
    cases h
    rw [hcapture] at hne
    exact absurd (hpass n l) hne
  | writerUnitChoice n =>
    cases h
    rw [hbegin] at hsame ⊢
    exact hsame (n := n) fun m => by cases m <;> rfl
  | writerWordHanded n => cases h; exact hsame (n := n) fun m => by rw [handWord_lane, hbegin]
  | sportArbitration n =>
    cases h
    rw [hbegin] at hsame ⊢
    exact hsame (n := n) fun m => by cases m <;> rfl
  | controllerAccessDone n => cases h; exact hsame (n := n) fun m => by rw [accessCompletes_lane, hbegin]
  | partWriteDone n => cases h; exact hsame (n := n) fun m => by rw [hbegin, partCompletes_lane (slot_pass hslot n)]

end

/-- Settles O57: `modeSound_step` for the promises, `modeCaused_of_exec` for the causes. -/
theorem stepKeepsModePromises : Obligations.StepKeepsModePromises :=
  ⟨fun _ _ hs h => modeSound_step hs h, fun _ _ _ _ hs hsettled hslot h hne => modeCaused_of_exec hs hsettled hslot h hne⟩

end Sys2Proof.Machine

/-! ## Proofs: the queue and the resets (section 95, R21, R106, R163, R196 to R198; O1, O6, O7, O8, O60) -/
namespace Sys2Proof.Machine

/-- Settles O1: `step` is that match on the queue. -/
theorem stepRunsTheQueue : Obligations.StepRunsTheQueue := by
  refine ⟨fun s c rest h => ?_, fun s h => ?_⟩
  · simp only [step, h]
  · simp only [step, h]

/-! ### Assertion -/

theorem atReset_eq (s : State) : s.ptu.atReset = pathAtReset s := by
  simp only [Ptu.atReset, pathAtReset, Bool.and_eq_true, decide_eq_true_eq, Option.isSome_iff_ne_none]

/-- Settles O6: the assertion of PORn writes every block's POR values. -/
theorem porTakesResetValues : Obligations.PorTakesResetValues := fun s after hs => by
  change Host.Outcome.next (s.begin after).assertPor = _
  rw [begin_of_settled hs, ← atReset_eq]
  rfl

/-- A cancellation shuts the valve of every phase and empties its pending slot (R99, R106). -/
theorem cancelValve_eq (x : Lane) (now : Nat) (y : Valve) :
    x.cancelValve now y = { phase := shutPhase now x.block.recoveryUs y.phase, pending := none } := by
  obtain ⟨phase, pending⟩ := y
  cases phase <;> rfl

theorem valve_afterWarm (x : Lane) (now : Nat) (v : Fin 64) :
    (x.afterWarm now).valve v = { phase := shutPhase now x.block.recoveryUs (x.valve v).phase, pending := none } :=
  (valve_mapValves x (x.cancelValve now) v).trans (cancelValve_eq x now _)

/-- Settles O7: the assertion of CRSTn, lane by lane and valve by valve. -/
theorem crstnKeepsRecipesAndRecoveries : Obligations.CrstnKeepsRecipesAndRecoveries := fun s after hs => by
  refine ⟨(s.pass after).assertWarm, ?_, rfl, rfl, rfl, rfl, rfl, rfl, atReset_eq s, fun l => ?_⟩
  · change Host.Outcome.next (s.begin after).assertWarm = _
    rw [begin_of_settled hs]
  · rw [assertWarm_lane, pass_lane]
    exact ⟨by rw [afterWarm_eq]; rfl, valve_afterWarm _ _⟩

/-! ### Release -/

/-- A memory path with nothing on its way only frees the guard at a release. -/
theorem flushPath_at_rest {s : State} (ha : s.ptu.access = none) (hp : s.ptu.sport = .free) :
    s.flushPath = { s with ptu := { s.ptu with guarded := false } } := by
  simp only [State.flushPath, State.flushPart, State.flushAccess, hp, ha]

/-- The announcement with the result writer at its reset values (R181, R182). -/
theorem announceReset_eq {s : State} (hw : s.rwu = {}) (warm : Bool) :
    s.announceReset warm =
      { s with
        rwu :=
          { queue := [⟨.resetDone s.ptu.frameSelect warm, 0⟩]
            commonWaiting := some s.events
            report0 := { snapshot := some (resetSnapshot s.lane0 s.events) }
            report1 := { snapshot := some (resetSnapshot s.lane1 s.events) }
            resetWarm := warm } } := by
  simp only [State.announceReset, hw]
  rfl

theorem releasePor_of_not_asserted {s : State} (h : s.porAsserted = false) (f : BitVec 2) : s.releasePor f = s := by
  simp [State.releasePor, h]

theorem releaseWarm_of_not_asserted {s : State} (h : s.crstAsserted = false) : s.releaseWarm = s := by
  simp [State.releaseWarm, h]

theorem frameAddress_eq (s : State) (o : FrameOffset) : frameAddress s o.toNat = addressOf s.ptu.frameSelect o := by
  have ho := o.isLt
  have hf := s.ptu.frameSelect.isLt
  apply BitVec.eq_of_toNat_eq
  rw [frameAddress, BitVec.toNat_ofNat, addressOf_toNat, Nat.mod_eq_of_lt (by omega)]
  omega

/-! ### What reaches the SRAM -/

/-- After an access each byte of its word is the data's if the access is a write with that byte enabled, else as before. -/
theorem readByte_carry_word (m : Memory) (x : Access) (n : Fin 4) :
    Memory.readByte (m.carry x) (x.addr.toNat * 4 + n.val) =
      if x.write = true ∧ x.be[n] = true then x.data.extractLsb' (8 * n.val) 8
      else Memory.readByte m (x.addr.toNat * 4 + n.val) := by
  have hn : x.addr.toNat * 4 + n.val - x.addr.toNat * 4 = n.val := by omega
  have hiff : (∃ k : Fin 4, x.be[k] = true ∧ x.addr.toNat * 4 + n.val = x.addr.toNat * 4 + k.val) ↔ x.be[n] = true := by
    refine ⟨fun ⟨k, hk, he⟩ => ?_, fun h => ⟨n, h, rfl⟩⟩
    obtain rfl : n = k := Fin.ext (by omega)
    exact hk
  rw [readByte_carry, hn]
  simp only [hiff]

/-- A word reads as its four bytes read. -/
theorem readWord_congr {m m' : Memory} {addr : WordAddr}
    (h : ∀ n : Fin 4, Memory.readByte m (addr.toNat * 4 + n.val) = Memory.readByte m' (addr.toNat * 4 + n.val)) :
    Memory.readWord m addr = Memory.readWord m' addr := by
  simp only [Memory.readWord]
  rw [show Memory.readByte m (addr.toNat * 4) = _ from h 0, show Memory.readByte m (addr.toNat * 4 + 1) = _ from h 1,
    show Memory.readByte m (addr.toNat * 4 + 2) = _ from h 2, show Memory.readByte m (addr.toNat * 4 + 3) = _ from h 3]
  rfl

/-- An access leaves every other word. -/
theorem readWord_carry_ne {m : Memory} {x : Access} {addr : WordAddr} (h : x.write = true → addr ≠ x.addr) :
    Memory.readWord (m.carry x) addr = Memory.readWord m addr := by
  refine readWord_congr fun n => readByte_carry_of_ne fun k hw _ he => h hw ?_
  exact BitVec.eq_of_toNat_eq (by omega)

/-- A word is its four bytes. -/
theorem bytes_append (d : Word) :
    d.extractLsb' 24 8 ++ d.extractLsb' 16 8 ++ d.extractLsb' 8 8 ++ d.extractLsb' 0 8 = d := by
  have := d.isLt
  apply BitVec.eq_of_toNat_eq
  simp only [toNat_append, BitVec.extractLsb'_toNat, Nat.shiftRight_eq_div_pow]
  omega

/-- A full write puts its data into its word. -/
theorem readWord_carry_full {m : Memory} {x : Access} (hw : x.write = true) (hb : x.be = fullEnables) :
    Memory.readWord (m.carry x) x.addr = x.data := by
  have hbyte (n : Fin 4) : Memory.readByte (m.carry x) (x.addr.toNat * 4 + n.val) = x.data.extractLsb' (8 * n.val) 8 := by
    have hn : x.be[n] = true := by
      rw [hb]
      fin_cases n <;> rfl
    rw [readByte_carry_word, if_pos ⟨hw, hn⟩]
  simp only [Memory.readWord]
  rw [show Memory.readByte _ (x.addr.toNat * 4) = _ from hbyte 0, show Memory.readByte _ (x.addr.toNat * 4 + 1) = _ from hbyte 1,
    show Memory.readByte _ (x.addr.toNat * 4 + 2) = _ from hbyte 2, show Memory.readByte _ (x.addr.toNat * 4 + 3) = _ from hbyte 3]
  exact bytes_append _

/-- A part write puts its word at its offset of the selected frame. -/
theorem readWord_carry_part (s : State) (m : Memory) (o : FrameOffset) (d : Word) :
    Memory.readWord (m.carry (s.ptu.partAccess o d)) (frameAddress s o.toNat) = d := by
  rw [frameAddress_eq]
  exact readWord_carry_full (x := s.ptu.partAccess o d) rfl rfl

/-! ### What a release completes -/

theorem flushPart_ptu (s : State) : s.flushPart.ptu = s.ptu := by
  unfold State.flushPart
  split <;> rfl

theorem flushPart_sram_of_part {s : State} {o : FrameOffset} {d : Word} (h : s.ptu.sport = .part o d) :
    s.flushPart.sram = s.sram.carry (s.ptu.partAccess o d) := by
  simp only [State.flushPart, h, carryPart_sram]

/-- A byte that no part write on its way is addressed to. -/
theorem readByte_flushPart {s : State} {b : Nat}
    (h : ∀ o d, s.ptu.sport = .part o d → ¬ wordBytes (frameAddress s o.toNat) b) :
    s.flushPart.sram.readByte b = s.sram.readByte b := by
  unfold State.flushPart
  split
  · rename_i o d hpart
    have hnot := h o d hpart
    rw [frameAddress_eq] at hnot
    rw [carryPart_sram]
    refine readByte_carry_of_ne fun n _ _ hb => hnot ?_
    have hn := n.isLt
    simp only [wordBytes, Ptu.partAccess] at hb ⊢
    omega
  · rfl
  · rfl

theorem flushPath_of_access {s : State} {a : Access} (h : s.ptu.access = some a) :
    s.flushPath.sram = s.flushPart.sram.carry a ∧
      s.flushPath.ptu.readData = if a.write then s.ptu.readData else s.flushPart.sram.readWord a.addr := by
  have hpart : s.flushPart.ptu.access = some a := by rw [flushPart_ptu, h]
  have hread : s.flushPart.ptu.readData = s.ptu.readData := by rw [flushPart_ptu]
  constructor
  · simp only [State.flushPath, State.flushAccess, hpart, carryAccess_sram]
  · simp only [State.flushPath, State.flushAccess, hpart, State.carryAccess, hread]

theorem flushPath_of_no_access {s : State} (h : s.ptu.access = none) : s.flushPath.sram = s.flushPart.sram := by
  have hpart : s.flushPart.ptu.access = none := by rw [flushPart_ptu, h]
  simp only [State.flushPath, State.flushAccess, hpart]

theorem flushPath_access (s : State) : s.flushPath.ptu.access = none := by
  unfold State.flushPath State.flushAccess
  dsimp only
  split
  · rfl
  · assumption

/-- What was on its way is in the SRAM after a release, the part write first, and every other byte is as before (log entry 20). -/
structure State.Completed (s t : State) : Prop where
  access : t.ptu.access = none
  sport : t.ptu.sport = .free
  guarded : t.ptu.guarded = false
  readData : t.ptu.readData = s.flushPath.ptu.readData
  sram : t.sram = s.flushPath.sram

namespace State.Completed

variable {s t : State} (h : s.Completed t)
include h

theorem part {o : FrameOffset} {d : Word} (hpart : s.ptu.sport = .part o d)
    (hother : ∀ a, s.ptu.access = some a → a.write = true → a.addr ≠ frameAddress s o.toNat) :
    t.sram.readWord (frameAddress s o.toNat) = d := by
  have hword : s.flushPart.sram.readWord (frameAddress s o.toNat) = d := by
    rw [flushPart_sram_of_part hpart, readWord_carry_part]
  rw [h.sram]
  cases ha : s.ptu.access with
  | none => rw [flushPath_of_no_access ha, hword]
  | some a => rw [(flushPath_of_access ha).1, readWord_carry_ne fun hw => (hother a ha hw).symm, hword]

theorem write {a : Access} (ha : s.ptu.access = some a) (hw : a.write = true) (n : Fin 4) (hn : a.be[n] = true) :
    t.sram.readByte (a.addr.toNat * 4 + n.val) = a.data.extractLsb' (8 * n.val) 8 := by
  rw [h.sram, (flushPath_of_access ha).1, readByte_carry_word, if_pos ⟨hw, hn⟩]

theorem read {a : Access} (ha : s.ptu.access = some a) (hw : a.write = false)
    (hother : ∀ o d, s.ptu.sport = .part o d → frameAddress s o.toNat ≠ a.addr) :
    t.ptu.readData = s.sram.readWord a.addr := by
  rw [h.readData, (flushPath_of_access ha).2, hw, if_neg (by decide)]
  refine readWord_congr fun n => readByte_flushPart fun o d hpart hb => hother o d hpart (BitVec.eq_of_toNat_eq ?_)
  have hn := n.isLt
  simp only [wordBytes] at hb
  omega

theorem rest {b : Nat} (ha : ∀ a, s.ptu.access = some a → a.write = true → ¬ wordBytes a.addr b)
    (hp : ∀ o d, s.ptu.sport = .part o d → ¬ wordBytes (frameAddress s o.toNat) b) :
    t.sram.readByte b = s.sram.readByte b := by
  rw [h.sram, ← readByte_flushPart hp]
  cases hs : s.ptu.access with
  | none => rw [flushPath_of_no_access hs]
  | some a =>
    rw [(flushPath_of_access hs).1]
    refine readByte_carry_of_ne fun n hw _ hb => ha a hs hw ?_
    have hn := n.isLt
    simp only [wordBytes]
    omega

end State.Completed

theorem completed_flushPath (s : State) : s.Completed s.flushPath := ⟨flushPath_access s, rfl, rfl, rfl, rfl⟩

theorem completed_releasePor {s : State} (h : s.porAsserted = true) (f : BitVec 2) : s.Completed (s.releasePor f) := by
  have hsame := samePath_resume ({ s.flushPath with porAsserted := false, ptu := { s.flushPath.ptu with frameSelect := f } }) false
  simp only [State.releasePor, h, if_true]
  exact ⟨by rw [hsame.ptu]; exact flushPath_access s, by rw [hsame.ptu]; rfl, by rw [hsame.ptu]; rfl, by rw [hsame.ptu],
    hsame.sram⟩

theorem completed_releaseWarm {s : State} (h : s.crstAsserted = true) : s.Completed s.releaseWarm := by
  have hsame := samePath_resume { s.flushPath with crstAsserted := false } true
  simp only [State.releaseWarm, h, if_true]
  exact ⟨by rw [hsame.ptu]; exact flushPath_access s, by rw [hsame.ptu]; rfl, by rw [hsame.ptu]; rfl, by rw [hsame.ptu],
    hsame.sram⟩

/-- Settles O8: `announceReset_eq` where the path is at rest, `State.Completed` where it is not. -/
theorem releaseAnnouncesReset : Obligations.ReleaseAnnouncesReset := by
  refine ⟨fun s n f hs ha hp => ?_, fun s n f c hs hc => ?_⟩
  · have hpor : exec (.porRelease n f) s = .next ((s.pass n).releasePor f) := by
      rw [← begin_of_settled hs n]
      rfl
    have hwarm : exec (.crstnRelease n) s = .next (s.pass n).releaseWarm := by
      rw [← begin_of_settled hs n]
      rfl
    have hrest : (s.pass n).flushPath = _ := flushPath_at_rest ha hp
    rw [hpor, hwarm]
    refine ⟨fun h1 h2 hw => ?_, fun h1 h2 hw => ?_, fun h1 h2 => ⟨?_, ?_⟩, fun h => ?_, fun h => ?_⟩
    · have h1' : (s.pass n).porAsserted = true := h1
      simp only [State.releasePor, h1', if_true, hrest, State.resume, State.inReset]
      rw [if_neg (by simp [State.pass, h2])]
      exact congrArg Host.Outcome.next (announceReset_eq (by exact hw) false)
    · have h1' : (s.pass n).crstAsserted = true := h1
      simp only [State.releaseWarm, h1', if_true, hrest, State.resume, State.inReset]
      rw [if_neg (by simp [State.pass, h2])]
      exact congrArg Host.Outcome.next (announceReset_eq (by exact hw) true)
    · have h1' : (s.pass n).porAsserted = true := h1
      simp only [State.releasePor, h1', if_true, hrest, State.resume, State.inReset]
      rw [if_pos (by simp [State.pass, h2])]
      rfl
    · have h2' : (s.pass n).crstAsserted = true := h2
      simp only [State.releaseWarm, h2', if_true, hrest, State.resume, State.inReset]
      rw [if_pos (by simp [State.pass, h1])]
      rfl
    · rw [releasePor_of_not_asserted (s := s.pass n) h]
    · rw [releaseWarm_of_not_asserted (s := s.pass n) h]
  · have hcompleted : ∃ t, exec c s = .next t ∧ (s.pass n).Completed t := by
      obtain ⟨rfl, h⟩ | ⟨rfl, h⟩ := hc
      · exact ⟨_, rfl, by rw [begin_of_settled hs]; exact completed_releasePor (s := s.pass n) h f⟩
      · exact ⟨_, rfl, by rw [begin_of_settled hs]; exact completed_releaseWarm (s := s.pass n) h⟩
    obtain ⟨t, hexec, ht⟩ := hcompleted
    exact ⟨t, hexec, ht.access, ht.sport, ht.guarded, fun _ _ hp ho => ht.part hp ho, fun _ ha hw n hn => ht.write ha hw n hn,
      fun _ ha hw ho => ht.read ha hw ho, fun _ ha hp => ht.rest ha hp⟩

/-! ### The reset state -/

theorem stopped_default : ({} : Lane).Stopped :=
  afterPor_stopped {}

/-- Settles O60: the part starts empty, with both lanes as POR leaves them. -/
theorem resetStateIsSound : Obligations.ResetStateIsSound := by
  have hlane : ({} : Lane).Bounded := ⟨by decide, by decide, by decide, by decide⟩
  have htable : ({} : Lane).TableSound :=
    ⟨List.nodup_nil, List.forall_mem_nil _, List.forall_mem_nil _, .nil, List.forall_mem_nil _, List.forall_mem_nil _⟩
  have hbalanced : ({} : Counters).Balanced := by
    unfold Counters.Balanced
    decide
  have hwaits {p : Snapshot} (h : some Snapshot.afterPor = some p) : p.counters.Balanced := by
    obtain rfl := Option.some.inj h
    exact hbalanced
  have hpath : State.reset.PathSound := ⟨by decide, by decide, nofun, nofun, nofun⟩
  refine ⟨⟨hpath, by decide, by decide, hlane, hlane⟩, wf_reset, ?_, ⟨hbalanced, hbalanced, fun _ => hwaits, fun _ => hwaits⟩, htable, htable, by decide⟩
  refine modeSound_of_stopped (fun l => ?_) rfl
  cases l <;> exact ⟨stopped_default, rfl⟩

end Sys2Proof.Machine

/-! ## Proofs: the U-port (sections 8.1, 10.1 to 10.4, R126, R141 to R143, R183 to R189; O9 to O14, O16) -/
namespace Sys2Proof.Machine

/-! ### Merging by byte enables -/

theorem extract_enableMask (be : Enables) (i : Fin 4) :
    (enableMask be).extractLsb' (8 * i.val) 8 = if be[i] = true then 0xFF#8 else 0#8 := by
  revert be i
  decide

/-- A merged word has the enabled bytes of the data and the other bytes of the old word. -/
theorem extract_mergeBytes (old data : Word) (be : Enables) (i : Fin 4) :
    (mergeBytes old data be).extractLsb' (8 * i.val) 8 =
      if be[i] = true then data.extractLsb' (8 * i.val) 8 else old.extractLsb' (8 * i.val) 8 := by
  have hi := i.isLt
  have hnot : (~~~enableMask be).extractLsb' (8 * i.val) 8 = ~~~(enableMask be).extractLsb' (8 * i.val) 8 := by
    ext k hk
    simp
    omega
  have hall : 255#8 = BitVec.allOnes 8 := rfl
  rw [mergeBytes, BitVec.extractLsb'_or, BitVec.extractLsb'_and, BitVec.extractLsb'_and, hnot, extract_enableMask]
  cases be[i]
  · rw [if_neg (by decide), if_neg (by decide), BitVec.and_zero, BitVec.not_zero, BitVec.and_allOnes, BitVec.zero_or]
  · rw [if_pos rfl, if_pos rfl, hall, BitVec.and_allOnes, BitVec.not_allOnes, BitVec.and_zero, BitVec.or_zero]

/-! ### The access a row presents -/

/-- An access is presented at the U-port. -/
def State.present (s : State) (a : Access) : State :=
  if a.write then s.acceptWrite a.addr a.data a.be else s.acceptRead a.addr a.be

theorem present_of_busy {s : State} (h : s.ptu.access.isSome) (a : Access) : s.present a = s := by
  obtain ⟨b, hb⟩ := Option.isSome_iff_exists.1 h
  simp [State.present, State.acceptWrite, State.acceptRead, hb]

theorem observe_access {s : State} (o : FrameOffset) (d : Word) (be : Enables) : (s.observe o d be).ptu.access = s.ptu.access := by
  unfold State.observe
  split
  · rfl
  · rfl
  · unfold State.goWritten
    split
    · rw [(samePath_goWordArrives s d).ptu]
    · rfl
  · unfold State.consumerWritten
    split <;> rfl
  · rw [((samePath_stagingWritten s _ d be).trans (samePath_finishCommands _)).ptu]
  · unfold State.enterFifo
    split <;> rfl

/-- An access is carried as it is presented, and reaches no byte of the SRAM before it is completed (R183). -/
theorem present_of_free {s : State} (h : s.ptu.access = none) {a : Access} (ha : a.write = false → a.data = 0) :
    (s.present a).ptu.access = some a ∧ (s.present a).sram = s.sram := by
  unfold State.present
  split
  · rename_i hw
    refine ⟨?_, (observes_acceptWrite s a.addr a.data a.be).sram⟩
    have heq : (⟨a.addr, true, a.data, a.be⟩ : Access) = a := by rw [← hw]
    simp only [State.acceptWrite, h, State.takeWrite]
    split
    · rw [observe_access, State.hold, heq]
    · rw [State.hold, heq]
  · rename_i hw
    refine ⟨?_, (observes_acceptRead s a.addr a.be).sram⟩
    have hr : a.write = false := by simpa using hw
    have heq : (⟨a.addr, false, 0, a.be⟩ : Access) = a := by rw [← hr, ← ha hr]
    simp only [State.acceptRead, h, State.hold, heq]

/-- Under reset an access is carried and not observed (R196). -/
theorem present_in_reset {s : State} (h : s.ptu.access = none) (hr : s.inReset = true) {a : Access}
    (ha : a.write = false → a.data = 0) : s.present a = s.hold a := by
  cases hw : a.write
  · have heq : (⟨a.addr, false, 0, a.be⟩ : Access) = a := by rw [← hw, ← ha hw]
    rw [State.present, hw, if_neg (by decide), State.acceptRead, h, heq]
  · have heq : (⟨a.addr, true, a.data, a.be⟩ : Access) = a := by rw [← hw]
    simp [State.present, hw, State.acceptWrite, h, State.takeWrite, hr, heq]

theorem frameAddress_ofNat (s : State) {k : Nat} (hk : k < 262144) :
    frameAddress s k = addressOf s.ptu.frameSelect (BitVec.ofNat 18 k) := by
  rw [← frameAddress_eq, BitVec.toNat_ofNat, Nat.mod_eq_of_lt hk]

theorem scanRingOffset_toNat (l : LaneId) (p : BitVec 4) (w : BitVec 12) :
    (scanRingOffset l p w).toNat = 0x20000 + 0x10000 * laneNumber l + 4096 * p.toNat + w.toNat := by
  have hat (r : BitVec 2) : (r ++ p ++ w).toNat = 65536 * r.toNat + 4096 * p.toNat + w.toNat := by
    rw [toNat_append, toNat_append]
    omega
  cases l
  · exact hat 2#2
  · exact hat 3#2

theorem scanRingOffset_eq (l : LaneId) (p : BitVec 4) (w : BitVec 12) :
    scanRingOffset l p w = BitVec.ofNat 18 (0x20000 + 0x10000 * laneNumber l + 4096 * p.toNat + w.toNat) := by
  apply BitVec.eq_of_toNat_eq
  rw [BitVec.toNat_ofNat, ← scanRingOffset_toNat, Nat.mod_eq_of_lt (scanRingOffset l p w).isLt]

theorem scanRing_lt (l : LaneId) (p : BitVec 4) (w : BitVec 12) :
    0x20000 + 0x10000 * laneNumber l + 4096 * p.toNat + w.toNat < 262144 :=
  scanRingOffset_toNat l p w ▸ (scanRingOffset l p w).isLt

/-- Every row of the U-port presents the access that stands beside it. -/
theorem exec_portRow {s : State} (hs : s.Settled) {n : Nat} {addr : WordAddr} {i : Fin 7} {o : BitVec 10} {l : LaneId}
    {slot : BitVec 4} {w : BitVec 12} {code : BitVec 8} {u : BitVec 6} {f : BitVec 2} {q : BitVec 16} {data : Word} {be : Enables}
    {p : Instr × Access} (hp : p ∈ portRows s n addr i o l slot w code u f q data be) :
    exec p.1 s = .next ((s.pass n).present p.2) ∧ (p.2.write = false → p.2.data = 0) := by
  have hgo (c : BitVec 8) : (s.pass n).acceptGoWord c u f q = (s.pass n).present (goAccess s c u f q) :=
    congrArg (fun a => (s.pass n).acceptWrite a (goWord c u f q) fullEnables) (frameAddress_ofNat s (by decide)).symm
  have hframe {k : Nat} (hk : k < 262144) (d : Word) (e : Enables) :
      (s.pass n).acceptFrameWrite (BitVec.ofNat 18 k) d e = (s.pass n).present ⟨frameAddress s k, true, d, e⟩ :=
    congrArg (fun a => (s.pass n).acceptWrite a d e) (frameAddress_ofNat s hk).symm
  have hi := i.isLt
  have ho := o.isLt
  simp only [portRows, goRows, List.map_cons, List.map_nil, List.cons_append, List.nil_append, List.mem_cons, List.not_mem_nil,
    or_false] at hp
  rw [← begin_of_settled hs] at hgo hframe ⊢
  obtain rfl | rfl | rfl | rfl | rfl | rfl | rfl | rfl | rfl | rfl | rfl | rfl | rfl | rfl | rfl := hp
  · exact ⟨rfl, fun _ => rfl⟩
  · exact ⟨rfl, nofun⟩
  · exact ⟨congrArg Host.Outcome.next (hframe (by omega) data be), nofun⟩
  · exact ⟨congrArg Host.Outcome.next (hframe (by decide) data 0xF), nofun⟩
  · exact ⟨congrArg Host.Outcome.next (hframe (by omega) data be), nofun⟩
  · refine ⟨?_, nofun⟩
    rw [← hframe (scanRing_lt l slot w), ← scanRingOffset_eq]
    rfl
  all_goals exact ⟨congrArg Host.Outcome.next (hgo _), nofun⟩

/-- Settles O13: every row presents its access, and a busy port, a free one and one under reset take it so. -/
theorem busyPortAndResetObserveNothing : Obligations.BusyPortAndResetObserveNothing := by
  intro s n addr i o l slot w code u f q data be hs p hp
  obtain ⟨hexec, hread⟩ := exec_portRow hs hp
  rw [hexec]
  refine ⟨fun hbusy => ⟨hbusy, by rw [present_of_busy (s := s.pass n) hbusy]⟩, fun hfree => ?_, fun hfree hr => ?_⟩
  · obtain ⟨haccess, hsram⟩ := present_of_free (s := s.pass n) hfree hread
    exact ⟨by simp [State.uwait, hfree], _, rfl, haccess, by simp [State.uwait, haccess], hsram⟩
  · rw [present_in_reset (s := s.pass n) hfree hr hread]
    rfl

/-! ### Where an offset goes -/

/-- The offsets with no destination: outside the mailbox, the staging area and the watched words of the scan rings (R184). -/
theorem sortOffset_eq_nowhere {o : FrameOffset}
    (h : (9 ≤ o.toNat ∧ o.toNat < 0x400) ∨ (0x800 ≤ o.toNat ∧ o.toNat < 0x20000) ∨
      (0x20000 ≤ o.toNat ∧ watchedSlotWord (slotWordOf o) = false)) : sortOffset o = .nowhere := by
  unfold sortOffset
  rw [dif_neg (by omega), if_neg (by omega), if_neg (by omega), if_neg (by omega), if_neg]
  rintro ⟨hring, hwatched⟩
  obtain h | h | ⟨-, h⟩ := h
  · omega
  · omega
  · simp [h] at hwatched

theorem sortOffset_eq_scanRing {o : FrameOffset} (h : 0x20000 ≤ o.toNat) (hw : watchedSlotWord (slotWordOf o) = true) :
    sortOffset o = .scanRing := by
  unfold sortOffset
  rw [dif_neg (by omega), if_neg (by omega), if_neg (by omega), if_neg (by omega), if_pos ⟨h, hw⟩]

theorem sortOffset_eq_staging (i : BitVec 10) : sortOffset (BitVec.ofNat 18 (0x400 + i.toNat)) = .staging i := by
  have hi := i.isLt
  have ho : (BitVec.ofNat 18 (0x400 + i.toNat)).toNat = 0x400 + i.toNat := by
    rw [BitVec.toNat_ofNat, Nat.mod_eq_of_lt (by omega)]
  unfold sortOffset
  rw [dif_neg (by omega), if_neg (by omega), if_neg (by omega), if_pos (by omega), ho, Nat.add_sub_cancel_left,
    BitVec.ofNat_toNat, BitVec.setWidth_eq]

theorem sortOffset_eq_argument (i : Fin 7) : sortOffset (BitVec.ofNat 18 i.val) = .argument i := by
  revert i
  decide

/-! ### Writes that act -/

theorem watchedSlotWord_iff {w : BitVec 12} :
    watchedSlotWord w = true ↔ w.toNat = 0 ∨ (1024 ≤ w.toNat ∧ w.toNat < 3072) ∨ w.toNat = 4095 := by
  simp only [watchedSlotWord, Bool.or_eq_true, Bool.and_eq_true, beq_iff_eq, decide_eq_true_eq]
  omega

theorem slotWordOf_toNat (o : FrameOffset) : (slotWordOf o).toNat = o.toNat % 4096 := by
  simp only [slotWordOf, BitVec.extractLsb'_toNat, Nat.shiftRight_zero]

/-- A write to a ready port outside the selected frame is carried alone. -/
theorem acceptWrite_of_ready {s : State} (h : s.PortReady) (n : Nat) (a : WordAddr) (d : Word) (be : Enables) :
    (s.begin n).acceptWrite a d be =
      if frameOf a = s.ptu.frameSelect then ((s.pass n).hold ⟨a, true, d, be⟩).observe (offsetOf a) d be
      else (s.pass n).hold ⟨a, true, d, be⟩ := by
  obtain ⟨hs, hr, ha⟩ := h
  simp [begin_of_settled hs, State.acceptWrite, ha, State.takeWrite, pass_inReset, hr]

/-- A copy with no destination, and a partial one to the go word or the consumer index, does nothing. -/
theorem observe_nothing {s : State} {o : FrameOffset} {d : Word} {be : Enables}
    (h : sortOffset o = .nowhere ∨ (o.toNat = 7 ∨ o.toNat = 8) ∧ be ≠ 0xF) : s.observe o d be = s := by
  obtain h | ⟨ho, hbe⟩ := h
  · simp only [State.observe, h]
  · have hpart : fullWrite be = false := by simpa [fullWrite, fullEnables] using hbe
    obtain ho | ho := ho
    · have hgo : sortOffset o = .goWord := by simp [sortOffset, ho]
      simp [State.observe, hgo, State.goWritten, hpart]
    · have hci : sortOffset o = .consumerIndex := by simp [sortOffset, ho]
      simp [State.observe, hci, State.consumerWritten, hpart]

/-- Settles O9: the frame decoder sends none of these copies anywhere. -/
theorem unwatchedAccessesOnlyCarried : Obligations.UnwatchedAccessesOnlyCarried := by
  intro s n addr d be hready
  refine ⟨?_, fun o w ho hw h => ?_⟩
  · change Host.Outcome.next ((s.begin n).acceptRead addr be) = _
    rw [begin_of_settled hready.settled]
    simp only [State.acceptRead, pass_ptu, hready.free, State.hold]
  · change Host.Outcome.next ((s.begin n).acceptWrite addr d be) = _
    rw [acceptWrite_of_ready hready]
    split
    · rename_i hframe
      have hoffset : (offsetOf addr).toNat = o := by
        simp only [offsetOf, BitVec.extractLsb'_toNat, Nat.shiftRight_zero, ho]
      have hselect : addr.toNat / 262144 = s.ptu.frameSelect.toNat := by
        have := addr.isLt
        rw [← hframe, frameOf, BitVec.extractLsb'_toNat, Nat.shiftRight_eq_div_pow]
        omega
      rw [observe_nothing]
      · rfl
      obtain h | h | h | ⟨hring, h⟩ | h := h
      · exact absurd hselect h
      · exact .inl (sortOffset_eq_nowhere (.inl (by omega)))
      · exact .inl (sortOffset_eq_nowhere (.inr (.inl (by omega))))
      · refine .inl (sortOffset_eq_nowhere (.inr (.inr ⟨by omega, ?_⟩)))
        have hslot : (slotWordOf (offsetOf addr)).toNat = w := by rw [slotWordOf_toNat, hoffset, hw]
        rw [← Bool.not_eq_true, watchedSlotWord_iff, hslot]
        omega
      · rw [hoffset]
        exact .inr h
    · rfl

/-- Settles O10: the argument word is merged, the consumer index replaced. -/
theorem mailboxWordsTaken : Obligations.MailboxWordsTaken := by
  intro s n i d be hready
  constructor
  · have hexec : exec (.argumentWordWrite n i d be) s = .next
        (((s.pass n).hold ⟨addressOf s.ptu.frameSelect (BitVec.ofNat 18 i.val), true, d, be⟩).argumentWritten i d be) := by
      change Host.Outcome.next ((s.begin n).acceptFrameWrite (BitVec.ofNat 18 i.val) d be) = _
      rw [acceptFrameWrite_of_ready hready]
      simp only [State.observe, sortOffset_eq_argument]
    have hi := i.isLt
    have hmerged : (s.cmu.shadow.set i (mergeBytes s.cmu.shadow[i] d be))[i] = mergeBytes s.cmu.shadow[i] d be := by
      simp
    refine ⟨_, hexec, ?_, fun k => ?_⟩
    · simp only [State.argumentWritten, State.hold, acceptedWrite, pass_cmu, pass_ptu, hmerged,
        frameAddress_ofNat s (show i.val < 262144 by omega)]
    · simp only [State.argumentWritten, State.hold, pass_cmu, hmerged]
      exact extract_mergeBytes _ _ _ k
  · change Host.Outcome.next ((s.begin n).acceptFrameWrite 8 d fullEnables) = _
    have hci : sortOffset 8 = .consumerIndex := by decide
    have hlow : d.setWidth 9 = BitVec.ofNat 9 (d.toNat % 512) := BitVec.eq_of_toNat_eq (by simp)
    rw [acceptFrameWrite_of_ready hready]
    simp only [State.observe, hci, State.consumerWritten, fullWrite, beq_self_eq_true, if_true, hlow]
    rw [show addressOf s.ptu.frameSelect 8 = frameAddress s 8 from (frameAddress_ofNat s (by decide)).symm]
    rfl

/-- Settles O12: a watched slot word goes to the FIFO of its lane. -/
theorem scanWriteAdmittedOrStalled : Obligations.ScanWriteAdmittedOrStalled := by
  intro s n l slot w d be hready hstall hw
  have htoNat := scanRingOffset_toNat l slot w
  have hexec : exec (.scanRingWrite n l slot w d be) s = .next
      (((s.pass n).hold ⟨frameAddress s (scanRingOffset l slot w).toNat, true, d, be⟩).enterFifo
        ⟨scanRingOffset l slot w, d, be⟩) := by
    have hslot : slotWordOf (scanRingOffset l slot w) = w := by
      have := w.isLt
      apply BitVec.eq_of_toNat_eq
      rw [slotWordOf_toNat, htoNat]
      omega
    have hring : sortOffset (scanRingOffset l slot w) = .scanRing :=
      sortOffset_eq_scanRing (by omega) (by rw [hslot]; exact watchedSlotWord_iff.2 hw)
    change Host.Outcome.next ((s.begin n).acceptFrameWrite (scanRingOffset l slot w) d be) = _
    rw [acceptFrameWrite_of_ready hready, frameAddress_eq]
    simp only [State.observe, hring]
  refine ⟨_, rfl, ?_, fun hroom => ?_, fun hfull => ?_⟩
  · have hs := slot.isLt
    have := w.isLt
    rw [← scanRingOffset_eq]
    cases l
    · exact if_pos (show (scanRingOffset .lane0 slot w).toNat < 0x30000 by rw [htoNat, laneNumber]; omega)
    · exact if_neg (show ¬ (scanRingOffset .lane1 slot w).toNat < 0x30000 by rw [htoNat, laneNumber]; omega)
  · rw [hexec, ← scanRingOffset_eq, State.enterFifo, if_pos (by exact hroom)]
    rfl
  · rw [hexec, ← scanRingOffset_eq, State.enterFifo, if_neg (by exact Nat.not_lt.2 hfull)]
    rfl

/-! ### A staging write -/

theorem mergeStaged_staged (s : State) (o : BitVec 10) (d : Word) (be : Enables) :
    (s.mergeStaged o d be).rtu.staged[o.toNat] = mergeBytes s.rtu.staged[o.toNat] d be := by simp [State.mergeStaged]

/-- A staging write ends a commit with the mask it had swapped, and leaves no command to finish (R126, R131, R136). -/
theorem stagingWritten_idle {s : State} (h : s.rtu.commit = .idle) (o : BitVec 10) (d : Word) (be : Enables) :
    s.stagingWritten o d be = s.mergeStaged o d be := by simp only [State.stagingWritten, h]

theorem completeCommand_eq {s : State} {r : CommandRecord} (h : s.cmu.executing = some r) (c : CommandStatus) (d : Word) :
    s.completeCommand c d =
      { s with
        cmu := { s.cmu with executing := none }
        rwu := s.rwu.enqueue (.commandDone r.code r.laneField r.seq c d) } := by
  simp only [State.completeCommand, h]
  rfl

theorem endCommit_rtu (s : State) (c : CommandStatus) (d : Word) : (s.endCommit c d).rtu = { s.rtu with commit := .idle } := by
  unfold State.endCommit State.completeCommand
  split <;> rfl

theorem stagingWritten_rtu (s : State) (o : BitVec 10) (d : Word) (be : Enables) :
    (s.stagingWritten o d be).rtu = { (s.mergeStaged o d be).rtu with commit := .idle } := by
  unfold State.stagingWritten
  dsimp only
  split
  · rename_i h
    exact congrArg (fun c => { (s.mergeStaged o d be).rtu with commit := c }) h
  · exact endCommit_rtu _ _ _
  · exact endCommit_rtu _ _ _

theorem stagingWritten_lane (s : State) (o : BitVec 10) (d : Word) (be : Enables) (l : LaneId) :
    (s.stagingWritten o d be).lane l = s.lane l := by
  have hmerged : (s.mergeStaged o d be).lane l = s.lane l := by cases l <;> rfl
  obtain h | ⟨c, e, h⟩ := stagingWritten_cases s o d be <;> rw [h]
  · exact hmerged
  · exact ((worked_endCommit (L := ∅) _ c e).other l (Set.notMem_empty l)).trans hmerged

theorem stagingWritten_slot (s : State) (o : BitVec 10) (d : Word) (be : Enables) :
    (s.stagingWritten o d be).cmu.slot = s.cmu.slot := by
  obtain h | ⟨c, e, h⟩ := stagingWritten_cases s o d be <;> rw [h]
  · rfl
  · exact (worked_endCommit (L := ∅) _ c e).slot

/-- Settles O11: the staged word is merged, and a commit in progress is answered. -/
theorem stagingWriteMergesAndEndsCommit : Obligations.StagingWriteMergesAndEndsCommit := by
  intro s n o d be hready hslot
  have ho := o.isLt
  have haddr : addressOf s.ptu.frameSelect (BitVec.ofNat 18 (0x400 + o.toNat)) = frameAddress s (0x400 + o.toNat) :=
    (frameAddress_ofNat s (by omega)).symm
  obtain ⟨u, hu⟩ : ∃ u, u = (s.pass n).hold ⟨frameAddress s (0x400 + o.toNat), true, d, be⟩ := ⟨_, rfl⟩
  have hexec : exec (.stagingWrite n o d be) s = .next (u.stagingWritten o d be) := by
    change Host.Outcome.next ((s.begin n).acceptFrameWrite (BitVec.ofNat 18 (0x400 + o.toNat)) d be) = _
    rw [acceptFrameWrite_of_ready hready, haddr, ← hu]
    simp only [State.observe, sortOffset_eq_staging]
    rw [finishCommands_same fun _ => by rw [stagingWritten_slot, hu]; exact hslot]
  have hrtu := stagingWritten_rtu u o d be
  have hpath := samePath_stagingWritten u o d be
  have hstaged : (u.stagingWritten o d be).rtu.staged[o.toNat] = mergeBytes s.rtu.staged[o.toNat] d be := by
    simp only [hrtu, mergeStaged_staged]
    rw [hu]
    rfl
  have hended {r : CommandRecord} (hr : s.cmu.executing = some r) (c : CommandStatus) (e : Word) :
      ((u.mergeStaged o d be).endCommit c e).cmu = { s.cmu with executing := none } ∧
        ((u.mergeStaged o d be).endCommit c e).rwu = s.rwu.enqueue (.commandDone r.code r.laneField r.seq c e) := by
    rw [State.endCommit, completeCommand_eq (by rw [hu]; exact hr), hu]
    exact ⟨rfl, rfl⟩
  refine ⟨_, hexec, ?_, fun i => ?_, ?_, ?_, ?_, ?_, ?_, fun hidle => ?_, fun r e m k hr hc => ?_, fun r m k hr hc => ?_⟩
  · rw [hstaged, hrtu, hu]
    rfl
  · rw [hstaged]
    exact extract_mergeBytes _ _ _ i
  · rw [hrtu]
  · exact (stagingWritten_lane u o d be .lane0).trans (by rw [hu]; rfl)
  · exact (stagingWritten_lane u o d be .lane1).trans (by rw [hu]; rfl)
  · rw [hpath.sram, hu]
    rfl
  · rw [hpath.ptu, hu]
    rfl
  · rw [stagingWritten_idle (by rw [hu]; exact hidle), hu]
    exact ⟨rfl, rfl⟩
  · have hscan : u.rtu.commit = .scanning e m k := by rw [hu]; exact hc
    simp only [State.stagingWritten, hscan]
    exact hended hr _ _
  · have hswap : u.rtu.commit = .swapping m k := by rw [hu]; exact hc
    simp only [State.stagingWritten, hswap, BitVec.ofNat_toNat]
    exact hended hr _ _

end Sys2Proof.Machine

/-! ## Proofs: the S-port and the writer (sections 9.1 to 9.3, 10.1, 10.5, R164 to R180, R192 to R194; O14 to O17) -/
namespace Sys2Proof.Machine

/-- Settles O14: the controller access on the S-port is carried out, and nothing without one. -/
theorem controllerAccessReachesSram : Obligations.ControllerAccessReachesSram := by
  refine ⟨fun s n a hs hport ha => ?_, fun s n hs hport => ?_⟩
  · have hexec : exec (.controllerAccessDone n) s = .next
        (({ s.pass n with ptu := { s.ptu with sport := .free } } : State).carryAccess a) := by
      change Host.Outcome.next (s.begin n).accessCompletes = _
      rw [begin_of_settled hs]
      simp only [State.accessCompletes, pass_ptu, hport, ha]
    rw [hexec]
    refine ⟨fun hw => ⟨_, rfl, ?_, ?_, rfl, rfl⟩, fun hw => ⟨_, rfl, ?_, fun i => ?_, rfl, rfl⟩⟩
    · simp only [State.carryAccess, Memory.carry, hw, Bool.false_eq_true, if_false, pass_sram]
    · simp only [State.readData, State.carryAccess, hw, Bool.false_eq_true, if_false, pass_sram]
    · simp only [State.carryAccess, hw, if_true]
    · rw [carryAccess_sram, readByte_carry_word]
      simp only [hw, true_and, pass_sram]
  · change Host.Outcome.next (s.begin n).accessCompletes = _
    rw [begin_of_settled hs]
    have hnot : (s.pass n).ptu.sport ≠ .controller := hport
    unfold State.accessCompletes
    split
    · rename_i hc _
      exact absurd hc hnot
    · rfl

/-! ### The arbiter -/

theorem exec_arbitration {s : State} (hs : s.Settled) (n : Nat) :
    exec (.sportArbitration n) s = .next { s.pass n with ptu := s.ptu.arbitrate (s.now + n) } := by
  change Host.Outcome.next { s.begin n with ptu := (s.begin n).ptu.arbitrate (s.begin n).now } = _
  rw [begin_of_settled hs]
  rfl

theorem carried_of_part {s : State} {o : FrameOffset} {d : Word} (h : s.ptu.sport = .part o d) :
    s.ptu.carried = some ⟨frameAddress s o.toNat, true, d, 0xF⟩ := by
  rw [frameAddress_eq]
  simp only [Ptu.carried, h, Ptu.partAccess, fullEnables]

/-- Settles O16: the arbiter's choices, and the outputs of the access it has placed. -/
theorem arbiterChoosesInOrder : Obligations.ArbiterChoosesInOrder := by
  constructor
  · intro s n hs
    rw [exec_arbitration hs]
    refine ⟨fun hbusy => ?_, fun hfree ha hst hg => ?_, fun w rest hfree ha hst hg hq hage => ?_,
      fun w rest hfree hq hidle => ?_, fun hfree hq hidle => ?_⟩
    · have hstays : s.ptu.arbitrate (s.now + n) = s.ptu := by
        unfold Ptu.arbitrate
        split
        · rfl
        · rfl
        · exact absurd (by assumption) hbusy
      rw [hstays]
      rfl
    · have hwaits : s.ptu.accessWaits = true := by simp [Ptu.accessWaits, ha, hst]
      have hnot : s.ptu.guardActs (s.now + n) = false := by
        unfold Ptu.guardActs Ptu.headStarves
        cases hq : s.ptu.writerQueue with
        | nil => simp
        | cons w rest =>
          obtain hg | hg := hg
          · simp [hg]
          · have := hg w (by rw [hq]; rfl)
            have hyoung : ¬ w.entered + Config.starvationClocks ≤ s.now + n := Nat.not_le.2 this
            simp only [hyoung, decide_false, Bool.and_false]
      simp only [Ptu.arbitrate, hfree, hwaits, if_true, hnot, Bool.false_eq_true, if_false]
    · have hwaits : s.ptu.accessWaits = true := by simp [Ptu.accessWaits, ha, hst]
      have hacts : s.ptu.guardActs (s.now + n) = true := by
        simp [Ptu.guardActs, hg, Ptu.headStarves, hq, Config.starvationClocks, hage]
      simp only [Ptu.arbitrate, hfree, hwaits, if_true, hacts, Ptu.startWord, hq]
    · have hwaits : s.ptu.accessWaits = false := by
        obtain h | h := hidle
        · simp [Ptu.accessWaits, h]
        · obtain ⟨x, hx⟩ := Option.isSome_iff_exists.1 h
          simp [Ptu.accessWaits, hx]
      simp only [Ptu.arbitrate, hfree, hwaits, Bool.false_eq_true, if_false, Ptu.startWord, hq]
    · have hwaits : s.ptu.accessWaits = false := by
        obtain h | h := hidle
        · simp [Ptu.accessWaits, h]
        · obtain ⟨x, hx⟩ := Option.isSome_iff_exists.1 h
          simp [Ptu.accessWaits, hx]
      have hstays : s.ptu.arbitrate (s.now + n) = s.ptu := by
        simp only [Ptu.arbitrate, hfree, hwaits, Bool.false_eq_true, if_false, Ptu.startWord, hq]
      rw [hstays]
      rfl
  · intro s
    refine ⟨fun hfree => ?_, fun a hport ha => ?_, fun o d hpart => ?_⟩
    · have hcarried : s.ptu.carried = none := by simp only [Ptu.carried, hfree]
      simp [State.ssel, State.sportAddress, State.sportWrite, State.sportEnables, State.sportData, hfree, hcarried]
    · have hcarried : s.ptu.carried = some a := by simp only [Ptu.carried, hport, ha]
      refine ⟨by simp [State.ssel, hport], by simp [State.sportAddress, hcarried], by simp [State.sportWrite, hcarried],
        by simp [State.sportEnables, hcarried], fun hw => by simp [State.sportData, hcarried, hw]⟩
    · have hcarried := carried_of_part hpart
      refine ⟨by simp [State.ssel, hpart], by simp [State.sportAddress, hcarried], by simp [State.sportWrite, hcarried],
        by simp [State.sportEnables, hcarried], by simp [State.sportData, hcarried]⟩

/-! ### Part writes and their reports -/

/-- A part's word is in the SRAM and the S-port free, before the report. -/
def State.partCarried (s : State) (n : Nat) (o : FrameOffset) (d : Word) : State :=
  ({ s.pass n with ptu := { s.ptu with sport := .free } } : State).carryPart o d

section
variable {s : State} (n : Nat) {o : FrameOffset} {d : Word}

theorem exec_partWriteDone (hs : s.Settled) (hport : s.ptu.sport = .part o d) :
    exec (.partWriteDone n) s = .next (s.partCarried n o d).wordReported := by
  change Host.Outcome.next (s.begin n).partCompletes = _
  rw [begin_of_settled hs]
  simp only [State.partCompletes, pass_ptu, hport, State.partCarried]

theorem partCarried_word (s : State) (n : Nat) (o : FrameOffset) (d : Word) :
    (s.partCarried n o d).sram.readWord (frameAddress s o.toNat) = d :=
  readWord_carry_part s s.sram o d

theorem wordReported_word (s : State) (n : Nat) (o : FrameOffset) (d : Word) :
    (s.partCarried n o d).wordReported.sram.readWord (frameAddress s o.toNat) = d := by
  rw [(samePath_wordReported _).sram, partCarried_word]

/-- The report of a unit's last word completes it, and with no command pending nothing more. -/
theorem wordReported_last {t : State} {u : WriterUnit} (hu : t.rwu.unit = some u) (hlast : u.unreported = 1)
    (hslot : t.cmu.slot = none) : t.wordReported = t.completeUnit u.kind := by
  simp only [State.wordReported, hu, hlast, le_refl, if_true]
  exact finishCommands_same fun _ => (worked_completeUnit t u.kind).slot.trans hslot

theorem completeUnit_rtu (t : State) (k : UnitKind) : (t.completeUnit k).rtu = t.rtu := by
  have hcommand (v : State) (c : CommandStatus) (e : Word) : (v.completeCommand c e).rtu = v.rtu := by
    unfold State.completeCommand
    split <;> rfl
  unfold State.completeUnit
  dsimp only
  split
  · rfl
  · rfl
  · split
    · split
      · exact hcommand _ _ _
      · rfl
    · rfl
  · exact hcommand _ _ _

/-- Both owed marks are clear once a lane's is cleared and the other's was. -/
theorem owed_clear {w : Rwu} {l : LaneId} (h : (w.report l.other).owed = false) :
    (w.clearOwed l).report0.owed = false ∧ (w.clearOwed l).report1.owed = false := by
  cases l
  · exact ⟨rfl, h⟩
  · exact ⟨h, rfl⟩

theorem owed_left {w : Rwu} {l : LaneId} (h : (w.report l.other).owed = true) :
    (w.clearOwed l).report0.owed = true ∨ (w.clearOwed l).report1.owed = true := by
  cases l
  · exact .inr h
  · exact .inl h

end

/-- Settles O15: what the last report completes, unit by unit. -/
theorem partWordReachesSramAndIsReported : Obligations.PartWordReachesSramAndIsReported := by
  refine ⟨fun s n o d u hs hport hu hmore => ?_, fun s n o d u hs hport hu hlast hslot => ?_, fun s n o d hs hport hu => ?_,
    fun s n hs hport => ?_⟩
  · refine ⟨_, exec_partWriteDone n hs hport, ?_, wordReported_word s n o d⟩
    have hunit : (s.partCarried n o d).rwu.unit = some u := hu
    simp only [State.wordReported, hunit, if_neg (show ¬ u.unreported ≤ 1 by omega)]
    rfl
  · have hword := wordReported_word s n o d
    obtain ⟨t, ht⟩ : ∃ t, t = s.partCarried n o d := ⟨_, rfl⟩
    have hcmu : t.cmu = s.cmu := by rw [ht]; rfl
    have hrwu : t.rwu = s.rwu := by rw [ht]; rfl
    have hlane (l : LaneId) : (t.completeUnit u.kind).lane l = s.lane l := by
      rw [(worked_completeUnit t u.kind).other l (Set.notMem_empty l), ht]
      cases l <;> rfl
    have hanswer {v : State} {r : CommandRecord} (hr : s.cmu.executing = some r) (hv : v.cmu = s.cmu) (c : CommandStatus)
        (e : Word) : (v.completeCommand c e).cmu = { s.cmu with executing := none } ∧
          (v.completeCommand c e).rwu = v.rwu.enqueue (.commandDone r.code r.laneField r.seq c e) := by
      rw [completeCommand_eq (by rw [hv]; exact hr), ← hv]
      exact ⟨rfl, rfl⟩
    rw [exec_partWriteDone n hs hport, ← ht, wordReported_last (by rw [hrwu]; exact hu) hlast (by rw [hcmu]; exact hslot)]
    rw [← ht, wordReported_last (by rw [hrwu]; exact hu) hlast (by rw [hcmu]; exact hslot)] at hword
    refine ⟨_, rfl, hword, hlane .lane0, hlane .lane1, ?_, ?_, fun slot hk => ?_, fun hk => ?_, fun l hk => ?_, fun l hk ho => ?_,
      fun l r hk ho hr hcode => ?_, fun r hk hr => ?_⟩
    · rw [completeUnit_rtu, ht]
      rfl
    · rw [(samePath_completeUnit t u.kind).ptu, ht]
      rfl
    · rw [hk, ← hrwu, ← hcmu]
      exact ⟨rfl, rfl⟩
    · rw [hk, ← hrwu, ← hcmu]
      exact ⟨rfl, rfl⟩
    · rw [hk, ← hrwu, ← hcmu]
      exact ⟨rfl, rfl⟩
    · obtain ⟨v, hv⟩ : ∃ v : State, v = { t with rwu := ({ s.rwu with unit := none } : Rwu).clearOwed l } := ⟨_, rfl⟩
      have hleft : v.snapshotWritten = false := by
        rw [hv]
        simp only [State.snapshotWritten]
        obtain h | h := owed_left (w := { s.rwu with unit := none }) (l := l) (by cases l <;> exact ho) <;> simp [h]
      have hcomplete : t.completeUnit (.laneBlock l true) = v := by
        simp only [State.completeUnit, if_true, hrwu]
        rw [← hv, hleft, if_neg (by decide)]
      rw [hk, hcomplete, hv, ← hcmu]
      refine ⟨rfl, ?_⟩
      cases l <;> rfl
    · obtain ⟨v, hv⟩ : ∃ v : State, v = { t with rwu := ({ s.rwu with unit := none } : Rwu).clearOwed l } := ⟨_, rfl⟩
      have hvcmu : v.cmu = s.cmu := by rw [hv]; exact hcmu
      have hwritten : v.snapshotWritten = true := by
        obtain ⟨h0, h1⟩ := owed_clear (w := { s.rwu with unit := none }) (l := l) (by cases l <;> exact ho)
        rw [State.snapshotWritten, hvcmu, hr, hv]
        simp [h0, h1, hcode]
      have hflag : v.clearFlag = r.args[0] := by
        rw [State.clearFlag, hvcmu, hr]
        rfl
      have hcomplete : t.completeUnit (.laneBlock l true) = v.completeCommand .ok r.args[0] := by
        simp only [State.completeUnit, if_true, hrwu]
        rw [← hv, hwritten, if_pos rfl, hflag]
      obtain ⟨hc, hw⟩ := hanswer hr hvcmu .ok r.args[0]
      rw [hk, hcomplete]
      refine ⟨hc, ?_⟩
      rw [hw, hcode, hv]
      cases l <;> rfl
    · obtain ⟨hc, hw⟩ := hanswer (v := { t with rwu := { t.rwu with unit := none } }) hr hcmu .ok t.rwu.captureGeneration
      rw [hk]
      refine ⟨hc, ?_⟩
      rw [← hrwu]
      exact hw
  · refine ⟨_, exec_partWriteDone n hs hport, ?_, wordReported_word s n o d⟩
    have hunit : (s.partCarried n o d).rwu.unit = none := hu
    simp only [State.wordReported, hunit]
    rfl
  · change Host.Outcome.next (s.begin n).partCompletes = _
    rw [begin_of_settled hs]
    unfold State.partCompletes
    split
    · rename_i o d h
      exact absurd h (hport o d)
    · rfl
    · rfl

/-! ### The writer -/

theorem exec_unitChoice {s : State} (hs : s.Settled) (n : Nat) :
    exec (.writerUnitChoice n) s = .next { s.pass n with rwu := s.rwu.choose s.cmu.consumerIndex s.ptu.frameSelect } := by
  change Host.Outcome.next (s.begin n).chooseUnit = _
  rw [begin_of_settled hs]
  rfl

theorem exec_wordHanded {s : State} (hs : s.Settled) (n : Nat) : exec (.writerWordHanded n) s = .next (s.pass n).handWord := by
  change Host.Outcome.next (s.begin n).handWord = _
  rw [begin_of_settled hs]

theorem placeFrom_length (base : Nat) (ws : List Word) : (placeFrom base ws).length = ws.length := by
  induction ws generalizing base with
  | nil => rfl
  | cons w ws ih => simp only [placeFrom, List.length_cons, ih]

theorem content_length (r : Record) : r.content.length = 7 := by cases r <;> rfl

theorem ringRecordWords_length (q : QueuedRecord) (slot : BitVec 9) : (ringRecordWords q slot).length = 9 := by
  simp only [ringRecordWords, List.length_append, placeFrom_length, QueuedRecord.words, List.length_cons, content_length,
    List.length_nil]

theorem commonBlockWords_length (pi : BitVec 9) (f : BitVec 2) (warm : Bool) (d : Word) :
    (commonBlockWords pi f warm d).length = 16 := rfl

theorem counters_words_length (c : Counters) : c.words.length = 31 := rfl

theorem laneBlockWords_length (p : Snapshot) (g : Word) : (laneBlockWords p g).length = 48 := rfl

theorem phase_words_length (p : ValvePhase) : p.words.length = 3 := by
  have hopening (o : Opening) : (ValvePhase.boost o).words.length = 3 ∧ ∀ b d, (ValvePhase.sustain o b d).words.length = 3 := by
    obtain ⟨source, -⟩ := o
    cases source <;> exact ⟨rfl, fun _ _ => rfl⟩
  cases p with
  | closed => rfl
  | boost o => exact (hopening o).1
  | sustain o b d => exact (hopening o).2 b d
  | recover b r e => rfl

theorem valve_words_length (y : Valve) : y.words.length = 16 := by
  unfold Valve.words
  rw [List.length_append, List.length_append, phase_words_length]
  cases y.pending <;> rfl

theorem padTo_length (n : Nat) (ws : List Word) : (padTo n ws).length = n := by
  simp only [padTo, List.length_take, List.length_append, List.length_replicate]
  omega

theorem valves_words_length (c : Capture) : (c.valves.toList.flatMap Valve.words).length = 1024 := by
  have hall (vs : List Valve) : (vs.flatMap Valve.words).length = 16 * vs.length := by
    induction vs with
    | nil => rfl
    | cons y vs ih =>
      simp only [List.flatMap_cons, List.length_append, valve_words_length, ih, List.length_cons]
      omega
  rw [hall, Vector.length_toList]

theorem captureWords_length (c : Capture) (g : Word) : (captureWords c g).length = 4096 := by
  simp only [captureWords, List.length_append, padTo_length, valves_words_length, List.length_replicate, List.length_cons,
    List.length_nil]

/-- With the queue empty or the ring full an idle writer looks among the blocks (R166, R169). -/
theorem no_record {w : Rwu} {ci : BitVec 9} (h : w.queue = [] ∨ w.producerIndex + 1 = ci) :
    (!w.queue.isEmpty && ringHasSpace w.producerIndex ci) = false := by
  obtain h | rfl := h
  · rw [h]
    rfl
  · rw [ringHasSpace, bne_self_eq_false, Bool.and_false]

/-- Settles O17: the writer's choice by what waits, the hand-over by the room, the records one after another. -/
theorem writerChoosesAndHands : Obligations.WriterChoosesAndHands := by
  refine ⟨fun s n hs hu => ⟨fun q rest hq hci => ?_, fun hblock => ?_⟩, fun s n hs hu => ?_, fun s n hs hu => ?_,
    fun s n u w rest hs hu hw => ⟨fun hroom => ?_, fun hfull => ?_⟩, fun s r => ⟨fun hroom => ?_, fun hfull => ?_⟩,
    fun s r rs => ⟨rfl, rfl, rfl⟩⟩
  · rw [exec_unitChoice hs]
    have hspace : (!s.rwu.queue.isEmpty && ringHasSpace s.rwu.producerIndex s.cmu.consumerIndex) = true := by
      rw [ringHasSpace, bne_iff_ne.2 hci, hq]
      rfl
    rw [Rwu.choose, if_neg (by simp [hu]), if_pos hspace]
    simp only [Rwu.chooseRecord, hq, Rwu.beginUnit, ringRecordWords_length]
  · rw [exec_unitChoice hs, Rwu.choose, if_neg (by simp [hu]), no_record hblock, if_neg (by decide)]
    refine ⟨fun a h => ?_, fun a l p h hp => ?_, fun a c h hc => ?_, fun h => ?_⟩
    · simp only [h, Rwu.chooseCommon, Rwu.beginUnit, placeFrom_length, commonBlockWords_length, commonBase]
    · have hbase : laneBlockBase l = 0x2010 + 0x30 * laneNumber l := by cases l <;> rfl
      simp only [h, Rwu.chooseLane, hp, Rwu.beginUnit, placeFrom_length, laneBlockWords_length, hbase]
    · simp only [h, Rwu.chooseDump, hc, Rwu.beginUnit, placeFrom_length, captureWords_length, captureBase]
    · rw [h]
      rfl
  · rw [exec_unitChoice hs, Rwu.choose, if_pos hu]
    rfl
  · rw [exec_wordHanded hs]
    cases hunit : s.rwu.unit with
    | none => simp only [State.handWord, pass_rwu, hunit]
    | some u => simp only [State.handWord, pass_rwu, hunit, hu u hunit]
  · rw [exec_wordHanded hs]
    have hplace : s.ptu.writerQueue.length < Config.writerQueuePlaces := hroom
    simp only [State.handWord, pass_rwu, pass_ptu, hu, hw, hplace, if_true, pass_now]
  · rw [exec_wordHanded hs]
    have hplace : ¬ s.ptu.writerQueue.length < Config.writerQueuePlaces := Nat.not_lt.2 hfull
    simp only [State.handWord, pass_rwu, pass_ptu, hu, hw, hplace, if_false]
  · obtain ⟨-, h⟩ | ⟨hno, -⟩ := enqueue_cases s.rwu r
    · rw [State.record, h]
    · omega
  · obtain ⟨hno, -⟩ | ⟨-, h⟩ := enqueue_cases s.rwu r
    · omega
    · refine ⟨fun hlow => ?_, fun hmax => ?_⟩
      · rw [State.record, h, Nat.min_eq_left (by omega)]
      · rw [State.record, h, Nat.min_eq_right (by omega), ← hmax]

end Sys2Proof.Machine

/-! ## Proofs: the words of a unit (sections 9.3, 11.3 to 11.7, R199 to R203; O18) -/
namespace Sys2Proof.Machine

/-! ### Fields of a word

A field of the model is a bit vector put at a place; a layout of the statement is an append, which is the same bits put side by
side. -/

/-- A bit vector's bits in a word, from bit `lsb` up. -/
def put (lsb : Nat) {w : Nat} (x : BitVec w) : Word := x.setWidth 32 <<< lsb

theorem field_eq_put (lsb w v : Nat) : field lsb w v = put lsb (BitVec.ofNat w v) := rfl

theorem put_append (k : Nat) {a b : Nat} (x : BitVec a) (y : BitVec b) : put k (x ++ y) = put (k + b) x ||| put k y := by
  ext i hi
  simp only [put, BitVec.getElem_or, BitVec.getElem_shiftLeft, BitVec.getElem_setWidth, BitVec.getLsbD_append]
  by_cases hlow : i < k
  · simp [hlow, show i < k + b by omega]
  · by_cases hmid : i < k + b
    · simp [hlow, hmid, show i - k < b by omega]
    · have hout : y.getLsbD (i - k) = false := BitVec.getLsbD_of_ge _ _ (by omega)
      simp [hlow, hmid, show ¬ i - k < b by omega, Nat.sub_sub, hout]

theorem put_zero (k w : Nat) : put k (0#w) = 0#32 := by simp [put]

theorem eq_put (x : Word) : x = put 0 x := by simp [put]

theorem field_aligned (w v : Nat) : field 0 w v = aligned w v := by simp [field, aligned]

theorem field_flag (b : Bool) : field 0 1 (flagBit b 0) = 0#31 ++ bit b := by revert b; decide

theorem field_seq (q : BitVec 16) : field 0 16 q.toNat = 0#16 ++ q := by
  rw [eq_put (0#16 ++ q)]
  simp only [put_append, put_zero, field_eq_put, BitVec.zero_or, BitVec.ofNat_toNat, BitVec.setWidth_eq]

theorem field_frame (f : BitVec 2) : field 0 2 f.toNat = 0#30 ++ f := by revert f; decide

theorem field_lane (l : LaneId) : field 0 1 (laneNumber l) = 0#30 ++ laneFieldOf l := by cases l <;> decide

theorem field_slot (slot : BitVec 4) (h : BitVec 16) : field 16 4 slot.toNat ||| field 0 16 h.toNat = 0#12 ++ slot ++ h := by
  rw [eq_put (0#12 ++ slot ++ h)]
  simp only [put_append, put_zero, field_eq_put, BitVec.zero_or, BitVec.ofNat_toNat, BitVec.setWidth_eq]

theorem field_columns (a b : Nat) :
    field 16 10 a ||| field 0 10 b = 0#6 ++ BitVec.ofNat 10 a ++ 0#6 ++ BitVec.ofNat 10 b := by
  rw [eq_put (0#6 ++ BitVec.ofNat 10 a ++ 0#6 ++ BitVec.ofNat 10 b)]
  simp only [put_append, put_zero, field_eq_put, BitVec.zero_or, BitVec.or_zero]

theorem field_identity :
    field 16 16 Config.partIdentity.toNat ||| field 0 8 Config.partRevision.toNat = 0x6412#16 ++ 0#8 ++ 0x01#8 := by decide

theorem tickLow_eq (t : TickTime) : tickLow t = lowWord t := by
  ext i hi
  simp [tickLow, lowWord]

theorem tickHigh_eq (t : TickTime) : tickHigh t = highWord t := by
  rw [eq_put (highWord t)]
  simp only [highWord, put_append, put_zero, BitVec.zero_or]
  simp [tickHigh, put]

theorem piWord_eq (slot : BitVec 9) : piWord slot = 0#23 ++ slot := by
  rw [eq_put (0#23 ++ slot)]
  simp only [put_append, put_zero, BitVec.zero_or]
  simp [piWord, put]

/-! ### Flags -/

theorem reportFlags_eq (r : RejectReport) :
    BitVec.ofNat 8 r.flags =
      0#1 ++ bit r.truncated ++ bit r.clamped ++ bit r.wide ++ bit r.cluster ++ bit r.long ++ bit r.merged ++ bit r.mixed := by
  have hbits : ∀ a b c d e f g : Bool,
      BitVec.ofNat 8 (flagBit a 0 + flagBit b 1 + flagBit c 2 + flagBit d 3 + flagBit e 4 + flagBit f 5 + flagBit g 6) =
        0#1 ++ bit g ++ bit f ++ bit e ++ bit d ++ bit c ++ bit b ++ bit a := by decide
  exact hbits ..

theorem firingFlags_eq (f : Firing) : BitVec.ofNat 3 f.flags = bit f.delayed ++ bit f.clamped ++ bit f.truncated := by
  have hbits : ∀ a b c : Bool, BitVec.ofNat 3 (flagBit a 0 + flagBit b 1 + flagBit c 2) = bit c ++ bit b ++ bit a := by decide
  exact hbits ..

theorem objectFlags_eq (a b : Bool) : BitVec.ofNat 2 (flagBit a 0 + flagBit b 1) = bit b ++ bit a := by
  revert a b
  decide

/-! ### Records -/

theorem reasonWord_eq (r : RejectReport) :
    field 24 8 r.reason.code ||| field 16 8 r.flags ||| field 8 8 r.firstMiss.code ||| field 0 8 r.firstValve =
      BitVec.ofNat 8 r.reason.code ++
        (0#1 ++ bit r.truncated ++ bit r.clamped ++ bit r.wide ++ bit r.cluster ++ bit r.long ++ bit r.merged ++ bit r.mixed) ++
        BitVec.ofNat 8 r.firstMiss.code ++ BitVec.ofNat 8 r.firstValve := by
  rw [← reportFlags_eq, eq_put (BitVec.ofNat 8 r.reason.code ++ BitVec.ofNat 8 r.flags ++ BitVec.ofNat 8 r.firstMiss.code ++
    BitVec.ofNat 8 r.firstValve)]
  simp only [put_append, field_eq_put]

theorem countsWord_eq (a b c : Nat) :
    field 24 8 a ||| field 16 8 b ||| field 8 8 c = BitVec.ofNat 8 a ++ BitVec.ofNat 8 b ++ BitVec.ofNat 8 c ++ 0#8 := by
  rw [eq_put (BitVec.ofNat 8 a ++ BitVec.ofNat 8 b ++ BitVec.ofNat 8 c ++ 0#8)]
  simp only [put_append, put_zero, field_eq_put, BitVec.or_zero]

/-- The content words of each kind are those of 11.4. -/
theorem content_eq (r : Record) : r.content = (recordLayout r).2.2 := by
  cases r with
  | resetDone f w => simp only [Record.content, recordLayout, field_identity, field_frame, field_flag]
  | commandDone code f seq c d =>
    simp only [Record.content, recordLayout, field_aligned]
    rfl
  | modeChange l a b c seq n => simp only [Record.content, recordLayout, field_seq, field_aligned 3]
  | clockEvent l e k n ln p => simp only [Record.content, recordLayout, field_aligned]
  | supplyEvent l b n m => simp only [Record.content, recordLayout, field_flag, field_aligned 3, field_aligned 16]
  | lineFault l c slot h n seen =>
    rw [Record.content, recordLayout, field_slot]
    simp only [field_aligned]
  | objectRejected l r =>
    rw [Record.content, recordLayout, reasonWord_eq, countsWord_eq, field_columns, field_aligned, tickLow_eq]
  | overflowRun l n e k a b c =>
    rw [Record.content, recordLayout, field_columns, field_flag, field_aligned, field_aligned]
  | firingsCancelled l c a b d => simp only [Record.content, recordLayout, field_aligned]
  | valveLimit l v b n t u m =>
    simp only [Record.content, recordLayout, field_flag, field_aligned 6, field_aligned 15, tickLow_eq]

theorem kindCode_eq (r : Record) : BitVec.ofNat 8 r.kindCode = (recordLayout r).1 := by cases r <;> rfl

theorem headerLane_eq (r : Record) : BitVec.ofNat 2 r.headerLane = (recordLayout r).2.1 := by
  have hlane (l : LaneId) : BitVec.ofNat 2 (laneNumber l) = laneFieldOf l := by cases l <;> rfl
  cases r with
  | resetDone f w => rfl
  | commandDone code f seq c d => simp only [Record.headerLane, recordLayout, BitVec.ofNat_toNat, BitVec.setWidth_eq]
  | modeChange l => exact hlane l
  | clockEvent l => exact hlane l
  | supplyEvent l => exact hlane l
  | lineFault l => exact hlane l
  | objectRejected l => exact hlane l
  | overflowRun l => exact hlane l
  | firingsCancelled l => exact hlane l
  | valveLimit l => exact hlane l

theorem words_eq (q : QueuedRecord) : q.words = recordWords q := by
  have hheader : field 24 8 q.record.kindCode ||| field 16 2 q.record.headerLane ||| field 0 8 q.drops =
      (recordLayout q.record).1 ++ 0#6 ++ (recordLayout q.record).2.1 ++ 0#8 ++ BitVec.ofNat 8 q.drops := by
    rw [← kindCode_eq, ← headerLane_eq, eq_put (BitVec.ofNat 8 q.record.kindCode ++ 0#6 ++
      BitVec.ofNat 2 q.record.headerLane ++ 0#8 ++ BitVec.ofNat 8 q.drops)]
    simp only [put_append, put_zero, field_eq_put, BitVec.or_zero]
  rw [QueuedRecord.words, recordWords, hheader, content_eq]

/-! ### Increasing offsets -/

theorem placeFrom_snd (base : Nat) (ws : List Word) : (placeFrom base ws).map Prod.snd = ws := by
  induction ws generalizing base with
  | nil => rfl
  | cons w ws ih => simp only [placeFrom, List.map_cons, ih]

theorem placeFrom_fst {base : Nat} {ws : List Word} {i : Nat} {p : FrameOffset × Word} (h : (placeFrom base ws)[i]? = some p) :
    p.1 = BitVec.ofNat 18 (base + i) := by
  induction ws generalizing base i with
  | nil => simp [placeFrom] at h
  | cons w ws ih =>
    cases i with
    | zero =>
      obtain rfl : (BitVec.ofNat 18 base, w) = p := by simpa [placeFrom] using h
      rfl
    | succ i =>
      rw [ih (base := base + 1) (i := i) (by simpa [placeFrom] using h), Nat.add_assoc, Nat.add_comm 1 i]

theorem ringRecordWords_fst {q : QueuedRecord} {slot : BitVec 9} {i : Nat} {p : FrameOffset × Word} (hi : i < 8)
    (h : (ringRecordWords q slot)[i]? = some p) : p.1.toNat = 0x1000 + 8 * slot.toNat + i := by
  have hlen : (placeFrom (ringBase + 8 * slot.toNat) q.words).length = 8 := by
    rw [placeFrom_length, QueuedRecord.words, List.length_cons, content_length]
  have hslot := slot.isLt
  rw [ringRecordWords, List.getElem?_append_left (by omega)] at h
  rw [placeFrom_fst h, BitVec.toNat_ofNat, ringBase, Nat.mod_eq_of_lt (by omega)]

/-! ### The oldest block -/

/-- Of the waiting blocks the oldest is taken, the first of equals (R169). -/
theorem oldestBlock_split {bs : List (Nat × BlockUnit)} {b : Nat × BlockUnit} (h : oldestBlock bs = some b) :
    ∃ pre post, bs = pre ++ b :: post ∧ (∀ c ∈ pre, b.1 < c.1) ∧ ∀ c ∈ post, b.1 ≤ c.1 := by
  induction bs generalizing b with
  | nil => cases h
  | cons a bs ih =>
    unfold oldestBlock at h
    split at h
    · rename_i hnone
      cases h
      refine ⟨[], bs, rfl, List.forall_mem_nil _, ?_⟩
      cases bs with
      | nil => exact List.forall_mem_nil _
      | cons c cs =>
        unfold oldestBlock at hnone
        split at hnone
        · cases hnone
        · split at hnone <;> cases hnone
    · rename_i c hc
      obtain ⟨pre, post, rfl, hpre, hpost⟩ := ih hc
      split at h
      · cases h
        exact ⟨a :: pre, post, rfl, List.forall_mem_cons.2 ⟨by assumption, hpre⟩, hpost⟩
      · cases h
        refine ⟨[], _, rfl, List.forall_mem_nil _, fun d hd => ?_⟩
        rcases List.mem_append.1 hd with hd | hd
        · have := hpre d hd
          omega
        · rcases List.mem_cons.1 hd with rfl | hd
          · omega
          · have := hpost d hd
            omega

theorem oldestBlock_eq_none {bs : List (Nat × BlockUnit)} (h : oldestBlock bs = none) : bs = [] := by
  cases bs with
  | nil => rfl
  | cons a bs =>
    unfold oldestBlock at h
    split at h
    · cases h
    · split at h <;> cases h

theorem waitingBlocks_eq (w : Rwu) : w.waitingBlocks =
    (match w.commonWaiting with | some a => [(a, .common)] | none => []) ++
    (match w.report0.snapshot with | some p => [(p.age, .laneBlock .lane0)] | none => []) ++
    (match w.report1.snapshot with | some p => [(p.age, .laneBlock .lane1)] | none => []) ++
    (match w.capture with | some c => [(c.age, .dump)] | none => []) := by
  unfold Rwu.waitingBlocks
  cases w.commonWaiting <;> cases w.report0.snapshot <;> cases w.report1.snapshot <;> cases w.capture <;> rfl

/-! ### Statistics blocks -/

theorem commonBlockWords_eq (pi : BitVec 9) (fs : BitVec 2) (warm : Bool) (dropped : Word) :
    commonBlockWords pi fs warm dropped =
      [0#23 ++ pi, 0x6412#16 ++ 0#8 ++ 0x01#8, 0#30 ++ fs, 0#31 ++ bit warm, dropped] ++ List.replicate 11 0 := by
  rw [commonBlockWords, piWord_eq, field_identity, field_frame, field_flag]

/-! ### The capture dump -/

theorem objectWords_eq (o : OpenObject) : o.words = objectPlace o := by
  have hid : field 24 8 o.slotId ||| field 0 2 (flagBit o.mixed 0 + flagBit o.merged 1) =
      BitVec.ofNat 8 o.slotId ++ 0#22 ++ bit o.merged ++ bit o.mixed := by
    rw [eq_put (BitVec.ofNat 8 o.slotId ++ 0#22 ++ bit o.merged ++ bit o.mixed), field_eq_put 0 2, objectFlags_eq]
    simp only [put_append, put_zero, field_eq_put, BitVec.or_zero, BitVec.or_assoc]
  rw [OpenObject.words, objectPlace, hid, field_columns, field_columns]
  simp only [field_aligned]

theorem firingWords_eq (f : Firing) : f.words = entryPlace f := by
  have hhead : field 24 6 f.valve.val ||| field 16 3 f.flags ||| field 0 8 f.joined =
      0#2 ++ BitVec.ofNat 6 f.valve.val ++ 0#5 ++ bit f.delayed ++ bit f.clamped ++ bit f.truncated ++ 0#8 ++
        BitVec.ofNat 8 f.joined := by
    rw [eq_put (0#2 ++ BitVec.ofNat 6 f.valve.val ++ 0#5 ++ bit f.delayed ++ bit f.clamped ++ bit f.truncated ++ 0#8 ++
      BitVec.ofNat 8 f.joined), field_eq_put 16 3, firingFlags_eq]
    simp only [put_append, put_zero, field_eq_put, BitVec.or_zero, BitVec.zero_or, BitVec.or_assoc]
  simp only [Firing.words, entryPlace, hhead, tickLow_eq, tickHigh_eq]

/-- The words of an opening's source, in BOOST and in SUSTAIN (R203). -/
theorem openingWords_eq (o : Opening) :
    (ValvePhase.boost o).words = openingPlace 1 o ∧ ∀ b d, (ValvePhase.sustain o b d).words = openingPlace 2 o := by
  have hfiring (phase : BitVec 2) (n : Nat) :
      field 24 2 phase.toNat ||| field 0 8 n = 0#6 ++ phase ++ 0#16 ++ BitVec.ofNat 8 n := by
    rw [eq_put (0#6 ++ phase ++ 0#16 ++ BitVec.ofNat 8 n)]
    simp only [put_append, put_zero, field_eq_put, BitVec.or_zero, BitVec.zero_or, BitVec.ofNat_toNat, BitVec.setWidth_eq]
  have htest (phase : BitVec 2) : field 24 2 phase.toNat ||| field 16 1 1 = 0#6 ++ phase ++ 0#7 ++ 1#1 ++ 0#16 := by
    revert phase
    decide
  obtain ⟨source, -⟩ := o
  cases source with
  | firing f =>
    constructor
    · simp only [ValvePhase.words, ValvePhase.code, openingPlace, tickLow_eq, tickHigh_eq, ← hfiring]
      rfl
    · intro b d
      simp only [ValvePhase.words, ValvePhase.code, openingPlace, tickLow_eq, tickHigh_eq, ← hfiring]
      rfl
  | test n =>
    constructor
    · simp only [ValvePhase.words, ValvePhase.code, openingPlace, ← htest]
      rfl
    · intro b d
      simp only [ValvePhase.words, ValvePhase.code, openingPlace, ← htest]
      rfl

theorem valveWords_eq (y : Valve) : y.words = valvePlace y := by
  obtain ⟨phase, pending⟩ := y
  refine congrArg₂ List.append (congrArg₂ List.append ?_ ?_) rfl
  · cases phase with
    | closed => exact congrArg (fun w : Word => [w, 0, 0]) (by decide : field 24 2 0 = 0)
    | boost o => exact (openingWords_eq o).1
    | sustain o b d => exact (openingWords_eq o).2 b d
    | recover b r e =>
      exact congrArg (fun w : Word => [w, 0, 0]) (by decide : field 24 2 3 = 0#6 ++ 3#2 ++ 0#24)
  · cases pending with
    | none => rfl
    | some f => exact congrArg (List.cons 1) (firingWords_eq f)

/-- A list that fits is filled up with zeros. -/
theorem padTo_eq {n : Nat} {ws : List Word} (h : ws.length ≤ n) : padTo n ws = ws ++ List.replicate (n - ws.length) 0 := by
  rw [padTo, List.take_append, List.take_of_length_le h, List.take_replicate, Nat.min_eq_left (by omega)]

theorem flatMap_length {α : Type} {f : α → List Word} {k : Nat} (hf : ∀ a, (f a).length = k) (as : List α) :
    (as.flatMap f).length = k * as.length := by
  rw [List.length_flatMap, List.map_congr_left fun a _ => hf a]
  simp [Nat.mul_comm]

theorem flatMap_words_eq {α : Type} {f g : α → List Word} (h : ∀ a, f a = g a) (as : List α) : as.flatMap f = as.flatMap g := by
  rw [show f = g from funext h]

theorem captureWords_eq {c : Capture} (g : Word) (ho : c.objects.length ≤ 48) (hf : c.firings.length ≤ 96) :
    captureWords c g =
      [g, 0#30 ++ laneFieldOf c.lane, 0#16 ++ c.seq, aligned 3 c.mode.code, 0#31 ++ bit c.supplyGood,
        aligned 3 c.clock.state.code, c.clock.ln, aligned 4 c.clock.k, aligned 20 c.clock.pq, aligned 8 c.clock.episode,
        c.expected, 0#31 ++ bit c.assembly.isSome, (match c.assembly with | some a => a.1 | none => 0),
        (match c.assembly with | some a => aligned 12 a.2 | none => 0), aligned 6 c.objects.length,
        aligned 7 c.firings.length] ++ List.replicate 48 0 ++
      c.objects.flatMap objectPlace ++ List.replicate (12 * (48 - c.objects.length)) 0 ++
      c.firings.flatMap entryPlace ++ List.replicate (8 * (96 - c.firings.length)) 0 ++
      c.valves.toList.flatMap valvePlace ++ List.replicate 1663 0 ++ [g] := by
  have hline : (c.assembly.map Prod.fst).getD 0 = (match c.assembly with | some a => a.1 | none => 0) := by
    cases c.assembly <;> rfl
  have hseen : field 0 12 ((c.assembly.map Prod.snd).getD 0) = (match c.assembly with | some a => aligned 12 a.2 | none => 0) := by
    cases c.assembly with
    | none => decide
    | some a => exact field_aligned 12 a.2
  have hobjects := flatMap_length (f := OpenObject.words) (k := 12) (fun _ => rfl) c.objects
  have hfirings := flatMap_length (f := Firing.words) (k := 8) (fun _ => rfl) c.firings
  have hopad : 576 - 12 * c.objects.length = 12 * (48 - c.objects.length) := by omega
  have hfpad : 768 - 8 * c.firings.length = 8 * (96 - c.firings.length) := by omega
  rw [captureWords, padTo_eq (by omega), padTo_eq (by omega), hobjects, hfirings, hopad, hfpad, flatMap_words_eq objectWords_eq,
    flatMap_words_eq firingWords_eq, flatMap_words_eq valveWords_eq, hline, hseen, field_lane, field_seq, field_flag, field_flag]
  simp only [field_aligned, List.append_assoc]

/-- Settles O18: the choice by induction on the waiting blocks, the words field by field. -/
theorem blockUnitsOrderedAndFormed : Obligations.BlockUnitsOrderedAndFormed := by
  refine ⟨fun _ _ => oldestBlock_split, fun _ => oldestBlock_eq_none, waitingBlocks_eq,
    fun base ws => ⟨placeFrom_snd base ws, fun _ _ => placeFrom_fst⟩,
    fun q slot => ⟨ringRecordWords_length q slot, ?_, fun _ _ => ringRecordWords_fst, ?_⟩, commonBlockWords_eq,
    fun p c g hc => ⟨rfl, ?_⟩, fun c g => ⟨captureWords_length c g, captureWords_eq g⟩, ?_⟩
  · rw [ringRecordWords, List.map_append, placeFrom_snd, placeFrom_snd, words_eq, piWord_eq]
  · rw [ringRecordWords]
    simp only [placeFrom, List.getLast?_append, List.getLast?_singleton, Option.some_or, Option.map_some]
    rfl
  · subst hc
    simp only [laneBlockWords, Counters.words, field_aligned, List.cons_append, List.nil_append]
  · exact ⟨rfl, rfl, rfl, rfl, rfl, rfl, rfl, rfl, rfl⟩

end Sys2Proof.Machine

/-! ## Proofs: go words (sections 8.2 to 8.4, R142 to R154, R158; O19 to O24, O26, O27) -/
namespace Sys2Proof.Machine

/-! ### A go word at a ready port -/

/-- The part after a go word has been accepted and before its copy has acted. -/
def State.commanded (s : State) (n : Nat) (code : BitVec 8) (u : BitVec 6) (f : BitVec 2) (q : BitVec 16) : State :=
  { s.pass n with ptu := { s.ptu with access := some (goAccess s code u f q) } }

theorem commanded_lane (s : State) (n : Nat) (code : BitVec 8) (u : BitVec 6) (f : BitVec 2) (q : BitVec 16) (l : LaneId) :
    (s.commanded n code u f q).lane l = s.lane l := by cases l <;> rfl

section
variable {s : State} {n : Nat} {x : BitVec 8} {u : BitVec 6} {f : BitVec 2} {q : BitVec 16} {p : BitVec 8 × Instr}

theorem exec_goRow_arrives (h : s.PortReady) (hp : p ∈ goRows n x u f q) :
    exec p.2 s = .next ((s.commanded n p.1 u f q).goWordArrives (goWord p.1 u f q)) := by
  have hat (c : BitVec 8) : (s.begin n).acceptGoWord c u f q = (s.commanded n c u f q).goWordArrives (goWord c u f q) := by
    have hgo : sortOffset 7 = .goWord := by decide
    rw [State.acceptGoWord, acceptFrameWrite_of_ready h]
    simp only [State.observe, hgo, State.goWritten, fullWrite, beq_self_eq_true, if_true]
    rw [show addressOf s.ptu.frameSelect 7 = frameAddress s 7 from (frameAddress_ofNat s (by decide)).symm]
    rfl
  simp only [goRows, List.mem_cons, List.not_mem_nil, or_false] at hp
  obtain rfl | rfl | rfl | rfl | rfl | rfl | rfl | rfl | rfl := hp
  all_goals exact congrArg Host.Outcome.next (hat _)

theorem recordOf_goWord (s : State) (c : BitVec 8) (u : BitVec 6) (f : BitVec 2) (q : BitVec 16) :
    s.cmu.recordOf (goWord c u f q) = commandOf s c f q := by
  obtain ⟨hcode, hlane, hseq⟩ := goWord_fields c u f q
  rw [Cmu.recordOf, hcode, hlane, hseq]
  rfl

/-- With no command executing the go word is executed with the arguments of the shadow (R144). -/
theorem exec_goRow (h : s.PortReady) (hidle : s.cmu.executing = none) (hp : p ∈ goRows n x u f q) :
    exec p.2 s = .next ((s.commanded n p.1 u f q).executeCommand (commandOf s p.1 f q)) := by
  have hnone : (s.commanded n p.1 u f q).cmu.executing = none := hidle
  rw [exec_goRow_arrives h hp, ← recordOf_goWord]
  simp only [State.goWordArrives, hnone]
  rfl

end

/-! ### The code picks the command (R142) -/

section
variable (s : State) {r : CommandRecord}

theorem executeCommand_start (h : r.code = 0x01) : s.executeCommand r = s.commandStart r := by
  rw [State.executeCommand, if_pos h]

theorem executeCommand_hold (h : r.code = 0x02) : s.executeCommand r = s.commandHold r := by
  rw [State.executeCommand, h]
  rfl

theorem executeCommand_resume (h : r.code = 0x03) : s.executeCommand r = s.commandResume r := by
  rw [State.executeCommand, h]
  rfl

theorem executeCommand_stop (h : r.code = 0x04) : s.executeCommand r = s.commandStop r := by
  rw [State.executeCommand, h]
  rfl

theorem executeCommand_commit (h : r.code = 0x10) : s.executeCommand r = s.commandCommit r := by
  rw [State.executeCommand, h]
  rfl

theorem executeCommand_test (h : r.code = 0x20) : s.executeCommand r = s.commandTest r := by
  rw [State.executeCommand, h]
  rfl

theorem executeCommand_stats (h : r.code = 0x30) : s.executeCommand r = s.commandStats r := by
  rw [State.executeCommand, h]
  rfl

theorem executeCommand_capture (h : r.code = 0x31) : s.executeCommand r = s.commandCapture r := by
  rw [State.executeCommand, h]
  rfl

theorem executeCommand_bad (h : r.code ∉ [(0x01 : BitVec 8), 0x02, 0x03, 0x04, 0x10, 0x20, 0x30, 0x31]) :
    s.executeCommand r = s.answer r .badCommand (r.code.setWidth 32) := by
  simp only [List.mem_cons, List.not_mem_nil, or_false, not_or] at h
  obtain ⟨h1, h2, h3, h4, h5, h6, h7, h8⟩ := h
  rw [State.executeCommand, if_neg h1, if_neg h2, if_neg h3, if_neg h4, if_neg h5, if_neg h6, if_neg h7, if_neg h8]

theorem withLane_of_lane {f : LaneId → State} {l : LaneId} (h : r.laneField = laneFieldOf l) : s.withLane r f = f l := by
  rw [State.withLane, h, laneOfField_laneFieldOf]

theorem withLane_of_none {f : LaneId → State} (h : 2 ≤ r.laneField.toNat) : s.withLane r f = s.answer r .badArgument (BitVec.ofNat 32 7) := by
  have hnone : laneOfField r.laneField = none := by
    unfold laneOfField
    rw [if_neg (fun h0 => by simp [h0] at h), if_neg (fun h1 => by simp [h1] at h)]
  rw [State.withLane, hnone]
  rfl

end

/-! ### The rows, each with its command -/

section
variable {s : State} (h : s.PortReady) (hidle : s.cmu.executing = none) (n : Nat) (u : BitVec 6) (f : BitVec 2) (q : BitVec 16)
include h hidle

theorem exec_laneStart : exec (.laneStart n u f q) s = .next ((s.commanded n 0x01 u f q).commandStart (commandOf s 0x01 f q)) := by
  rw [← executeCommand_start _ rfl]
  exact exec_goRow (x := 0) (p := (0x01, .laneStart n u f q)) h hidle (.head _)

theorem exec_laneHold : exec (.laneHold n u f q) s = .next ((s.commanded n 0x02 u f q).commandHold (commandOf s 0x02 f q)) := by
  rw [← executeCommand_hold _ rfl]
  exact exec_goRow (x := 0) (p := (0x02, .laneHold n u f q)) h hidle (by simp [goRows])

theorem exec_laneResume :
    exec (.laneResume n u f q) s = .next ((s.commanded n 0x03 u f q).commandResume (commandOf s 0x03 f q)) := by
  rw [← executeCommand_resume _ rfl]
  exact exec_goRow (x := 0) (p := (0x03, .laneResume n u f q)) h hidle (by simp [goRows])

theorem exec_laneStop : exec (.laneStop n u f q) s = .next ((s.commanded n 0x04 u f q).commandStop (commandOf s 0x04 f q)) := by
  rw [← executeCommand_stop _ rfl]
  exact exec_goRow (x := 0) (p := (0x04, .laneStop n u f q)) h hidle (by simp [goRows])

theorem exec_tableCommit :
    exec (.tableCommit n u f q) s = .next ((s.commanded n 0x10 u f q).commandCommit (commandOf s 0x10 f q)) := by
  rw [← executeCommand_commit _ rfl]
  exact exec_goRow (x := 0) (p := (0x10, .tableCommit n u f q)) h hidle (by simp [goRows])

theorem exec_valveTest : exec (.valveTest n u f q) s = .next ((s.commanded n 0x20 u f q).commandTest (commandOf s 0x20 f q)) := by
  rw [← executeCommand_test _ rfl]
  exact exec_goRow (x := 0) (p := (0x20, .valveTest n u f q)) h hidle (by simp [goRows])

theorem exec_statsSnapshot :
    exec (.statsSnapshot n u f q) s = .next ((s.commanded n 0x30 u f q).commandStats (commandOf s 0x30 f q)) := by
  rw [← executeCommand_stats _ rfl]
  exact exec_goRow (x := 0) (p := (0x30, .statsSnapshot n u f q)) h hidle (by simp [goRows])

theorem exec_captureState :
    exec (.captureState n u f q) s = .next ((s.commanded n 0x31 u f q).commandCapture (commandOf s 0x31 f q)) := by
  rw [← executeCommand_capture _ rfl]
  exact exec_goRow (x := 0) (p := (0x31, .captureState n u f q)) h hidle (by simp [goRows])

end

/-! ### Judgements before the mode -/

theorem answered_eq (s : State) (n : Nat) (code : BitVec 8) (u : BitVec 6) (f : BitVec 2) (q : BitVec 16) (c : CommandStatus)
    (d : Nat) : answered s n code u f q c d = (s.commanded n code u f q).answer (commandOf s code f q) c (BitVec.ofNat 32 d) := rfl

theorem commandOf_arg (s : State) (code : BitVec 8) (f : BitVec 2) (q : BitVec 16) (i : Fin 7) :
    (commandOf s code f q).arg i = (s.cmu.shadow[i]).toNat := rfl

theorem exists_laneFieldOf {f : BitVec 2} (h : f.toNat < 2) : ∃ l, f = laneFieldOf l := by
  have hcases : ∀ f : BitVec 2, f.toNat < 2 → f = 0 ∨ f = 1 := by decide
  exact (hcases f h).elim (fun h => ⟨.lane0, h⟩) fun h => ⟨.lane1, h⟩

/-- Settles O26: the judgements of R146 before the mode, in order. -/
theorem badCommandsOnlyAnswered : Obligations.BadCommandsOnlyAnswered := by
  intro s n u f q hready
  have hp := hready.toPortReady
  have hidle := hready.idle
  refine ⟨fun code hcode => ?_, fun hf p hmem => ?_, fun hmask => ?_, fun hflag => ?_, fun hf => ?_⟩
  · have hbad := exec_goRow (x := code) (p := (code, .badCommand n code u f q)) hp hidle
      (u := u) (f := f) (q := q) (n := n) (by simp [goRows])
    rw [answered_eq, BitVec.ofNat_toNat]
    exact hbad.trans (congrArg Host.Outcome.next (executeCommand_bad (r := commandOf s code f q) _ hcode))
  · have hfield (c : BitVec 8) : 2 ≤ (commandOf s c f q).laneField.toNat := hf
    simp only [List.mem_cons, List.not_mem_nil, or_false] at hmem
    obtain rfl | rfl | rfl | rfl | rfl | rfl := hmem
    · rw [exec_laneStart hp hidle, State.commandStart, withLane_of_none _ (hfield _), answered_eq]
    · rw [exec_laneHold hp hidle, State.commandHold, withLane_of_none _ (hfield _), answered_eq]
    · rw [exec_laneResume hp hidle, State.commandResume, withLane_of_none _ (hfield _), answered_eq]
    · rw [exec_laneStop hp hidle, State.commandStop, withLane_of_none _ (hfield _), answered_eq]
    · rw [exec_valveTest hp hidle, State.commandTest, withLane_of_none _ (hfield _), answered_eq]
    · rw [exec_captureState hp hidle, State.commandCapture, withLane_of_none _ (hfield _), answered_eq]
  · rw [exec_tableCommit hp hidle, State.commandCommit, if_pos, answered_eq]
    · rfl
    · rw [commandOf_arg, Nat.lt_one_iff]
      exact hmask
  · rw [exec_statsSnapshot hp hidle, State.commandStats, if_pos, answered_eq]
    · rfl
    · exact hflag
  · obtain ⟨l, hl⟩ := exists_laneFieldOf hf
    have hfield (c : BitVec 8) : (commandOf s c f q).laneField = laneFieldOf l := hl
    rw [exec_laneStart hp hidle, exec_valveTest hp hidle, State.commandStart, State.commandTest, withLane_of_lane _ (hfield _),
      withLane_of_lane _ (hfield _)]
    refine ⟨fun h0 => ?_, fun h0 h1 => ?_, fun h0 => ?_, fun h0 h1 => ?_⟩
    · rw [if_pos (show 65535 < (commandOf s 0x01 f q).arg 0 from h0)]
      rfl
    · rw [if_neg (show ¬ 65535 < (commandOf s 0x01 f q).arg 0 from Nat.not_lt.2 h0),
        if_pos (show (commandOf s 0x01 f q).arg 1 < 2500 ∨ 50000 < (commandOf s 0x01 f q).arg 1 from h1)]
      rfl
    · rw [dif_neg (show ¬ (commandOf s 0x20 f q).arg 0 < 64 from Nat.not_lt.2 h0)]
      rfl
    · rw [dif_pos (show (commandOf s 0x20 f q).arg 0 < 64 from Nat.lt_succ_of_le h0),
        if_pos (show (commandOf s 0x20 f q).arg 1 < 1 ∨ 65535 < (commandOf s 0x20 f q).arg 1 from
          h1.imp Nat.lt_one_iff.2 id)]
      rfl

/-! ### Judgements by the lane's state -/

/-- A VALVE_TEST of a valve of lane `l` for a duration in range is judged by the lane's state (R146, R102). -/
theorem commandTest_eq {t : State} {r : CommandRecord} {l : LaneId} {v : Fin 64} (hl : r.laneField = laneFieldOf l)
    (hv : r.arg 0 = v.val) (h1 : 1 ≤ r.arg 1) (h2 : r.arg 1 ≤ 65535) :
    (∀ d, (t.lane l).judgeTest v (r.arg 1) = (.ok, d) →
        t.commandTest r = (t.modLane l fun x => x.startTest t.now v d).answer r .ok (BitVec.ofNat 32 d)) ∧
      ∀ c d, (t.lane l).judgeTest v (r.arg 1) = (c, d) → c ≠ .ok → t.commandTest r = t.answer r c (BitVec.ofNat 32 d) := by
  have hin : r.arg 0 < 64 := by rw [hv]; exact v.isLt
  have hvalve : (⟨r.arg 0, hin⟩ : Fin 64) = v := Fin.ext hv
  have hrange : ¬ (r.arg 1 < 1 ∨ 65535 < r.arg 1) := by omega
  refine ⟨fun d hd => ?_, fun c d hd hc => ?_⟩
  · rw [State.commandTest, withLane_of_lane _ hl, dif_pos hin, if_neg hrange]
    simp only [hvalve, hd]
  · rw [State.commandTest, withLane_of_lane _ hl, dif_pos hin, if_neg hrange]
    simp only [hvalve, hd]

/-- Settles O27: a lane field that names a lane, arguments in range, and the lane's state refuses or finds the command done. -/
theorem refusedCommandsOnlyAnswered : Obligations.RefusedCommandsOnlyAnswered := by
  intro s n u l q x hready hx
  have hp := hready.toPortReady
  have hidle := hready.idle
  have hlane (c : BitVec 8) : (s.commanded n c u (laneFieldOf l) q).lane l = x := (commanded_lane ..).trans hx
  have hfield (c : BitVec 8) : (commandOf s c (laneFieldOf l) q).laneField = laneFieldOf l := rfl
  refine ⟨fun hm => ?_, fun hm => ?_, fun hm => ?_, fun hm => ?_, fun h0 h1 h2 => ?_, fun v hv h1 h2 => ?_⟩
  · rw [exec_laneHold hp hidle, exec_laneResume hp hidle, State.commandHold, State.commandResume, withLane_of_lane _ (hfield _),
      withLane_of_lane _ (hfield _), hlane, hlane]
    obtain hm | hm := hm <;> rw [hm] <;> exact ⟨rfl, rfl⟩
  · rw [exec_laneHold hp hidle, State.commandHold, withLane_of_lane _ (hfield _), hlane]
    obtain hm | hm := hm <;> rw [hm] <;> rfl
  · rw [exec_laneResume hp hidle, State.commandResume, withLane_of_lane _ (hfield _), hlane, hm]
    rfl
  · rw [exec_laneStop hp hidle, State.commandStop, withLane_of_lane _ (hfield _), hlane, if_pos hm]
    rfl
  · rw [exec_laneStart hp hidle, State.commandStart, withLane_of_lane _ (hfield _), hlane]
    rw [if_neg (show ¬ 65535 < (commandOf s 0x01 (laneFieldOf l) q).arg 0 from Nat.not_lt.2 h0),
      if_neg (show ¬ ((commandOf s 0x01 (laneFieldOf l) q).arg 1 < 2500 ∨ 50000 < (commandOf s 0x01 (laneFieldOf l) q).arg 1) from
        fun h => h.elim (Nat.not_lt.2 h1) (Nat.not_lt.2 h2))]
    refine ⟨fun hm => ?_, fun hm ht => ?_⟩
    · rw [if_pos hm]
      rfl
    · rw [if_neg (not_not.2 hm), if_pos ht]
      rfl
  · have hjudged {c : CommandStatus} {d : Nat} (hj : x.judgeTest v s.cmu.shadow[1].toNat = (c, d)) (hc : c ≠ .ok) :
        exec (.valveTest n u (laneFieldOf l) q) s = .next (answered s n 0x20 u (laneFieldOf l) q c d) := by
      rw [exec_valveTest hp hidle, answered_eq, (commandTest_eq (hfield _) hv h1 h2).2 c d (by rw [hlane]; exact hj) hc]
    refine ⟨fun hm => hjudged ?_ nofun, fun hm => ⟨fun ht => hjudged ?_ nofun, fun ht hg => hjudged ?_ nofun,
      fun ht hg hbusy => hjudged ?_ nofun⟩⟩
    · rw [Lane.judgeTest, if_pos]
      obtain hm | hm | hm := hm <;> rw [hm] <;> decide
    all_goals rw [Lane.judgeTest, if_neg (by tauto)]
    · rw [ht]
    · obtain ⟨tb, htb⟩ := Option.ne_none_iff_exists'.1 ht
      rw [htb]
      dsimp only
      rw [hg]
      rfl
    · obtain ⟨tb, htb⟩ := Option.ne_none_iff_exists'.1 ht
      rw [htb]
      dsimp only
      rw [hg, if_neg (by decide), if_neg (by tauto)]

/-! ### Commands that are executed -/

/-- Settles O22: a mask 1..3 makes the command the executing one and begins the scan. -/
theorem tableCommitBeginsScan : Obligations.TableCommitBeginsScan := by
  intro s n u f q hready h1 h3
  rw [exec_tableCommit hready.toPortReady hready.idle, State.commandCommit, if_neg]
  · rfl
  · simp only [commandOf_arg]
    exact fun h => h.elim (fun h => absurd h (Nat.not_lt.2 h1)) fun h => absurd h (Nat.not_lt.2 h3)

/-- Settles O23: an accepted test starts one opening. -/
theorem valveTestOpensTheValve : Obligations.ValveTestOpensTheValve := by
  intro s n u l q v d tb hready hm ht hg hv hd hd1 hd2 hphase hpending
  have hlane : (s.commanded n 0x20 u (laneFieldOf l) q).lane l = s.lane l := commanded_lane ..
  have hduration : (commandOf s 0x20 (laneFieldOf l) q).arg 1 = d := hd
  have hjudged : (s.lane l).judgeTest v d = (.ok, min d tb.block.maxOnUs) := by
    rw [Lane.judgeTest, if_neg (by tauto), ht]
    dsimp only
    rw [hg, if_neg (by decide), if_pos ⟨hphase, hpending⟩]
  have hblock : (s.lane l).block = tb.block := by rw [Lane.block, Lane.activeTable, ht]; rfl
  obtain ⟨t, ht'⟩ : ∃ t, t = (s.commanded n 0x20 u (laneFieldOf l) q).modLane l fun x =>
      x.startTest (s.now + n) v (min d tb.block.maxOnUs) := ⟨_, rfl⟩
  have htlane : t.lane l = (s.lane l).startTest (s.now + n) v (min d tb.block.maxOnUs) := by
    rw [ht', lane_modLane_self, hlane]
  have hexec : exec (.valveTest n u (laneFieldOf l) q) s = .next
      (t.answer (commandOf s 0x20 (laneFieldOf l) q) .ok (BitVec.ofNat 32 (min d tb.block.maxOnUs))) := by
    rw [exec_valveTest hready.toPortReady hready.idle, ht', (commandTest_eq (r := commandOf s 0x20 (laneFieldOf l) q) rfl hv
      (by omega) (by omega)).1 _ (by rw [hlane, hduration]; exact hjudged)]
    rfl
  refine ⟨_, hexec, ?_⟩
  simp only [State.answer, record_lane, record_rtu, record_cmu, record_rwu, htlane]
  refine ⟨rfl, ?_, fun w hw => ?_, ?_, ?_, ?_, ?_, ?_⟩
  · rw [Lane.startTest, valve_setValve_self, Lane.beginOpening, hblock]
  · exact valve_setValve_ne _ _ hw
  · rw [ht', modLane_other, commanded_lane]
  · rw [ht', modLane_rtu]
    rfl
  · rw [ht', modLane_cmu]
    rfl
  · exact (show t.sram = _ by rw [ht', modLane_sram]; rfl)
  · rw [ht', modLane_rwu]
    rfl

/-! ### Records and snapshots of a mode change -/

/-- Records as they queue with room for all: the first carries the drop count, which is 0 after it (R164). -/
def queuedRecords (d : Nat) : List Record → List QueuedRecord
  | [] => []
  | r :: rs => ⟨r, d⟩ :: rs.map (⟨·, 0⟩)

theorem enqueue_of_room {w : Rwu} (h : w.queue.length < 24) (r : Record) :
    (w.enqueue r).queue = w.queue ++ [⟨r, w.dropCount⟩] ∧ (w.enqueue r).dropCount = 0 := by
  obtain ⟨-, he⟩ | ⟨hno, -⟩ := enqueue_cases w r
  · rw [he]
    exact ⟨rfl, rfl⟩
  · omega

theorem enqueue_report (w : Rwu) (r : Record) (l : LaneId) : (w.enqueue r).report l = w.report l := (enqueue_bounds w r).2.2 l

theorem foldl_enqueue_report (rs : List Record) (w : Rwu) (l : LaneId) : (rs.foldl Rwu.enqueue w).report l = w.report l := by
  induction rs generalizing w with
  | nil => rfl
  | cons r rs ih => rw [List.foldl_cons, ih, enqueue_report]

/-- Records made with room for all join the queue in order. -/
theorem foldl_enqueue_of_room {rs : List Record} {w : Rwu} (h : w.queue.length + rs.length ≤ 24) :
    (rs.foldl Rwu.enqueue w).queue = w.queue ++ queuedRecords w.dropCount rs ∧
      (rs ≠ [] → (rs.foldl Rwu.enqueue w).dropCount = 0) := by
  have hzero (rs : List Record) (w : Rwu) (h : w.queue.length + rs.length ≤ 24) (hd : w.dropCount = 0) :
      (rs.foldl Rwu.enqueue w).queue = w.queue ++ rs.map (⟨·, 0⟩) ∧ (rs.foldl Rwu.enqueue w).dropCount = 0 := by
    induction rs generalizing w with
    | nil => exact ⟨by simp, hd⟩
    | cons r rs ih =>
      rw [List.length_cons] at h
      obtain ⟨hq, hc⟩ := enqueue_of_room (show w.queue.length < 24 by omega) r
      obtain ⟨hq', hc'⟩ := ih (w.enqueue r) (by rw [hq, List.length_append, List.length_singleton]; omega) hc
      exact ⟨by rw [List.foldl_cons, hq', hq, hd, List.append_assoc]; rfl, hc'⟩
  cases rs with
  | nil => exact ⟨by simp [queuedRecords], fun h => absurd rfl h⟩
  | cons r rs =>
    rw [List.length_cons] at h
    obtain ⟨hq, hc⟩ := enqueue_of_room (show w.queue.length < 24 by omega) r
    obtain ⟨hq', hc'⟩ := hzero rs (w.enqueue r) (by rw [hq, List.length_append, List.length_singleton]; omega) hc
    exact ⟨by rw [List.foldl_cons, hq', hq, List.append_assoc]; rfl, fun _ => hc'⟩

theorem takeSnapshot_report (s : State) (l : LaneId) (c : SnapshotCause) :
    (s.takeSnapshot l c).rwu.report l =
        { s.rwu.report l with
          snapshot := some
            { counters := (s.lane l).counters, mode := (s.lane l).mode, clockState := (s.lane l).clock.state
              period := (s.lane l).clock.pq / 16, ln := (s.lane l).clock.ln, cause := c
              age := ((s.rwu.report l).snapshot.map Snapshot.age).getD s.events } } ∧
      (s.takeSnapshot l c).rwu.report l.other = s.rwu.report l.other := by
  refine ⟨?_, report_setReport_ne _ _ (other_lane_ne l)⟩
  simp only [State.takeSnapshot, report_setReport_self]
  cases (s.rwu.report l).snapshot <;> rfl

/-- The end of a command that has changed a mode: with the records it has made, its snapshot and its answer. -/
structure State.ModeChanged (s t : State) (l : LaneId) (rs : List Record) : Prop where
  other : t.lane l.other = s.lane l.other
  rtu : t.rtu = s.rtu
  cmu : t.cmu = s.cmu
  sram : t.sram = s.sram
  queue : t.rwu.queue = s.rwu.queue ++ queuedRecords s.rwu.dropCount rs
  snapshot : modeSnapshot s t l

section
variable {s v : State} {l : LaneId} {rs : List Record}

/-- Work that changes lane `l` and makes records, then the snapshot of the mode change and the answer. -/
theorem modeChanged_of_answer (hlane : v.lane l.other = s.lane l.other) (hrtu : v.rtu = s.rtu) (hcmu : v.cmu = s.cmu)
    (hsram : v.sram = s.sram) (hevents : v.events = s.events + 1) (hrwu : v.rwu = rs.foldl Rwu.enqueue s.rwu)
    (hrs : rs ≠ []) (hroom : s.rwu.queue.length + rs.length + 1 ≤ 24) (r : CommandRecord) (c : CommandStatus) (d : Word) :
    s.ModeChanged ((v.takeSnapshot l .modeChange).answer r c d) l (rs ++ [.commandDone r.code r.laneField r.seq c d]) := by
  have hreport (m : LaneId) : v.rwu.report m = s.rwu.report m := by rw [hrwu, foldl_enqueue_report]
  have hqueue : ((v.takeSnapshot l .modeChange).answer r c d).rwu.queue =
      (v.rwu.enqueue (.commandDone r.code r.laneField r.seq c d)).queue := by
    have hsame : (v.takeSnapshot l .modeChange).rwu.queue = v.rwu.queue := setReport_queue ..
    have hdrops : (v.takeSnapshot l .modeChange).rwu.dropCount = v.rwu.dropCount := setReport_dropCount ..
    have hall := (foldl_enqueue_of_room (rs := rs) (w := s.rwu) (by omega)).1
    have hplace : v.rwu.queue.length < 24 := by
      rw [hrwu, hall, List.length_append]
      cases rs with
      | nil => exact absurd rfl hrs
      | cons r rs =>
        simp only [queuedRecords, List.length_cons, List.length_map] at hroom ⊢
        omega
    rw [State.answer, record_rwu, (enqueue_of_room (by rw [hsame]; exact hplace) _).1, (enqueue_of_room hplace _).1, hsame, hdrops]
  obtain ⟨hsnap, hother⟩ := takeSnapshot_report v l .modeChange
  refine ⟨?_, hrtu, hcmu, hsram, ?_, ?_, ?_⟩
  · rw [State.answer, record_lane, takeSnapshot_lane, hlane]
  · have hfold : v.rwu.enqueue (.commandDone r.code r.laneField r.seq c d) =
        (rs ++ [Record.commandDone r.code r.laneField r.seq c d]).foldl Rwu.enqueue s.rwu := by
      rw [List.foldl_append, hrwu]
      rfl
    rw [hqueue, hfold]
    exact (foldl_enqueue_of_room (by rw [List.length_append, List.length_singleton]; omega)).1
  · rw [State.answer, record_rwu, enqueue_report, hsnap, hreport, hevents]
    simp only [snapshotOf, record_lane, takeSnapshot_lane]
  · rw [State.answer, record_rwu, enqueue_report, hother, hreport]

end

theorem setMode_rwu (s : State) (l : LaneId) (m : LaneMode) (c : ModeCause) (q : BitVec 16) :
    (s.setMode l m c q).rwu = s.rwu.enqueue (.modeChange l (s.lane l).mode m c q (s.lane l).clock.ln) := by
  simp only [State.setMode, record_rwu, setLane_rwu]

theorem setMode_rest (s : State) (l : LaneId) (m : LaneMode) (c : ModeCause) (q : BitVec 16) :
    (s.setMode l m c q).lane l.other = s.lane l.other ∧ (s.setMode l m c q).rtu = s.rtu ∧ (s.setMode l m c q).cmu = s.cmu ∧
      (s.setMode l m c q).sram = s.sram ∧ (s.setMode l m c q).events = s.events := by
  refine ⟨?_, ?_, ?_, (samePath_setMode s l m c q).sram, (samePath_setMode s l m c q).events⟩
  · rw [State.setMode, record_lane, lane_setLane_ne _ _ (other_lane_ne l)]
  · rw [State.setMode, record_rtu, setLane_rtu]
  · rw [State.setMode, record_cmu, setLane_cmu]

/-- A mode change that then writes its lane, with its snapshot and its answer. -/
theorem modeChanged_setMode {s : State} (n : Nat) (code : BitVec 8) (u : BitVec 6) (l : LaneId) (q : BitVec 16)
    (hroom : s.rwu.queue.length + 2 ≤ 24) (m : LaneMode) (c : ModeCause) (f : Lane → Lane) (d : Word) :
    s.ModeChanged
      (((((s.commanded n code u (laneFieldOf l) q).setMode l m c q).modLane l f).takeSnapshot l .modeChange).answer
        (commandOf s code (laneFieldOf l) q) .ok d)
      l [.modeChange l (s.lane l).mode m c q (s.lane l).clock.ln, .commandDone code (laneFieldOf l) q .ok d] := by
  obtain ⟨hother, hrtu, hcmu, hsram, hevents⟩ := setMode_rest (s.commanded n code u (laneFieldOf l) q) l m c q
  refine modeChanged_of_answer (rs := [_]) ?_ ?_ ?_ ?_ ?_ ?_ (by simp) hroom _ _ _
  · rw [modLane_other, hother, commanded_lane]
  · rw [modLane_rtu, hrtu]
    rfl
  · rw [modLane_cmu, hcmu]
    rfl
  · rw [modLane_sram, hsram]
    rfl
  · rw [modLane_events, hevents]
    rfl
  · rw [modLane_rwu, setMode_rwu, commanded_lane]
    rfl

/-- Settles O19: LANE_START writes its lane and makes its two records and its snapshot. -/
theorem laneStartSeedsTheLane : Obligations.LaneStartSeedsTheLane := by
  intro s n u l q hready hm ht h0 h1 h2
  have hlane (c : BitVec 8) : (s.commanded n c u (laneFieldOf l) q).lane l = s.lane l := commanded_lane ..
  obtain ⟨t, hteq⟩ : ∃ t, t = ((s.commanded n 0x01 u (laneFieldOf l) q).startLane l s.cmu.shadow[0].toNat s.cmu.shadow[1].toNat
      q).answer (commandOf s 0x01 (laneFieldOf l) q) .ok (modeDetail .run) := ⟨_, rfl⟩
  have hexec : exec (.laneStart n u (laneFieldOf l) q) s = .next t := by
    rw [exec_laneStart hready.toPortReady hready.idle, State.commandStart, withLane_of_lane _ (l := l) rfl,
      if_neg (show ¬ 65535 < (commandOf s 0x01 (laneFieldOf l) q).arg 0 from Nat.not_lt.2 h0),
      if_neg (show ¬ ((commandOf s 0x01 (laneFieldOf l) q).arg 1 < 2500 ∨
        50000 < (commandOf s 0x01 (laneFieldOf l) q).arg 1) from fun h => h.elim (Nat.not_lt.2 h1) (Nat.not_lt.2 h2)),
      hlane, if_neg (not_not.2 hm), if_neg ht, hteq]
    rfl
  obtain ⟨hother, hrtu, hcmu, hsram, hqueue, hsnap, -⟩ := hteq ▸ modeChanged_setMode n 0x01 u l q (s := s) hready.room .run .start
    (fun x => { x with
      assembly := none, expected := BitVec.ofNat 32 s.cmu.shadow[0].toNat
      clock := x.clock.seed s.cmu.shadow[0].toNat s.cmu.shadow[1].toNat, drainCount := 0 }) (modeDetail .run)
  have htlane := ((congrArg (State.lane · l) hteq).trans (answer_lane _ _ _ _ l)).trans (startLane_lane _ l _ _ q)
  rw [hlane] at htlane
  refine ⟨t, hexec, ?_, hother, hrtu, hcmu, hsram, ?_, ?_, _, congrArg LaneReport.snapshot hsnap, rfl, ?_, ?_, ?_⟩
  · rw [htlane, BitVec.ofNat_toNat, BitVec.setWidth_eq, Clock.seed, BitVec.ofNat_toNat, BitVec.setWidth_eq]
  · rw [hteq]
    exact ((samePath_startLane _ l _ _ q).trans (samePath_answer _ _ _ _)).ptu
  · rw [hqueue, hm]
    rfl
  · simp only [snapshotOf, htlane]
  · simp only [snapshotOf, htlane, Clock.seed]
  · simp only [snapshotOf, htlane]

/-- Settles O20: LANE_HOLD and LANE_RESUME write their lane's mode and make their records and the snapshot. -/
theorem holdAndResumeChangeMode : Obligations.HoldAndResumeChangeMode := by
  intro s n u l q hready
  have hlane (c : BitVec 8) : (s.commanded n c u (laneFieldOf l) q).lane l = s.lane l := commanded_lane ..
  refine ⟨fun hm => ?_, fun hm => ?_⟩
  · obtain ⟨hother, hrtu, hcmu, hsram, hqueue, hsnap⟩ := modeChanged_setMode n 0x02 u l q (s := s) hready.room .drain .hold
      (fun x => { x with drainCount := 0 }) (modeDetail .drain)
    refine ⟨_, ?_, ?_, hother, hrtu, hcmu, hsram, ?_, hsnap⟩
    · rw [exec_laneHold hready.toPortReady hready.idle, State.commandHold, withLane_of_lane _ (l := l) rfl, hlane, hm]
      rfl
    · exact (answer_lane _ _ _ _ l).trans ((holdLane_lane _ l q).trans (by rw [hlane]))
    · rw [hqueue, hm]
      rfl
  · have hsame (v : State) (m : LaneMode) (c : ModeCause) : (v.setMode l m c q).modLane l id = v.setMode l m c q :=
      modLane_same _ _ _ rfl
    have hchanged := modeChanged_setMode n 0x03 u l q (s := s) hready.room .run .resume id (modeDetail .run)
    rw [hsame] at hchanged
    obtain ⟨hother, hrtu, hcmu, hsram, hqueue, hsnap⟩ := hchanged
    refine ⟨_, ?_, ?_, hother, hrtu, hcmu, hsram, hqueue, hsnap⟩
    · rw [exec_laneResume hready.toPortReady hready.idle, State.commandResume, withLane_of_lane _ (l := l) rfl, hlane]
      obtain hm | hm := hm <;> rw [hm] <;> rfl
    · exact (answer_lane _ _ _ _ l).trans ((resumeLane_lane _ l q).trans (by rw [hlane]))

theorem stopBlocks_records (x : Lane) (l : LaneId) (now : Nat) (r : MissReason) :
    (x.stopBlocks l now r).2 =
      if x.firings.length + x.countValves (fun y => y.pending.isSome) + x.countValves (fun y => y.opening.isSome) = 0 then []
      else [.firingsCancelled l r x.firings.length (x.countValves fun y => y.pending.isSome)
        (x.countValves fun y => y.opening.isSome)] := rfl

theorem apply_rwu (s : State) (l : LaneId) (w : Lane × List Record) : (s.apply l w).rwu = w.2.foldl Rwu.enqueue s.rwu := by
  simp only [State.apply, State.records, setLane_rwu]

/-- Settles O21: LANE_STOP stops the lane's blocks and makes up to three records and its snapshot. -/
theorem laneStopCancelsAndAbandons : Obligations.LaneStopCancelsAndAbandons := by
  intro s n u l q queued pendings openings hready hm hqueued hpendings hopenings
  obtain ⟨v, hv⟩ : ∃ v, v = s.commanded n 0x04 u (laneFieldOf l) q := ⟨_, rfl⟩
  have hlane : v.lane l = s.lane l := hv ▸ commanded_lane ..
  have hnow : v.now = s.now + n := by rw [hv]; rfl
  obtain ⟨x, hx⟩ : ∃ x : Lane, x = { s.lane l with mode := .off, drainDue := false } := ⟨_, rfl⟩
  have hset : (v.setMode l .off .stop q).lane l = x := by rw [setMode_lane, hlane, hx]
  have hsetnow : (v.setMode l .off .stop q).now = s.now + n := (samePath_setMode v l _ _ _).now.trans hnow
  obtain ⟨rs, hrs⟩ : ∃ rs, rs = (x.stopBlocks l (s.now + n) .stopped).2 := ⟨_, rfl⟩
  have hrecords : rs = if queued + pendings + openings = 0 then []
      else [.firingsCancelled l .stopped queued pendings openings] := by
    rw [hrs, stopBlocks_records, hqueued, hpendings, hopenings, hx]
    rfl
  have hlength : rs.length ≤ 1 := by
    rw [hrecords]
    split <;> simp
  have hroom := hready.room
  simp only [Config.eventQueuePlaces] at hroom
  obtain ⟨hother, hrtu, hcmu, hsram, hevents⟩ := setMode_rest v l .off .stop q
  have hchanged := modeChanged_of_answer (s := s) (v := (v.setMode l .off .stop q).apply l (x.stopBlocks l (s.now + n) .stopped))
    (l := l) (rs := .modeChange l (s.lane l).mode .off .stop q (s.lane l).clock.ln :: rs)
    (by rw [apply_lane_ne _ _ (other_lane_ne l), hother, hv, commanded_lane]) (by rw [apply_rtu, hrtu, hv]; rfl)
    (by rw [apply_cmu, hcmu, hv]; rfl) (by rw [(samePath_apply _ _ _).sram, hsram, hv]; rfl)
    (by rw [(samePath_apply _ _ _).events, hevents, hv]; rfl)
    (by rw [apply_rwu, setMode_rwu, hlane, ← hrs, hv]; rfl) (by simp) (by rw [List.length_cons]; omega)
    (commandOf s 0x04 (laneFieldOf l) q) .ok (modeDetail .off)
  have hstop : ((v.setMode l .off .stop q).apply l (x.stopBlocks l (s.now + n) .stopped)).takeSnapshot l .modeChange =
      v.stopLane l q := by
    rw [State.stopLane, hset, hsetnow]
  rw [hstop] at hchanged
  obtain ⟨hother, hrtu, hcmu, hsram, hqueue, hsnap⟩ := hchanged
  obtain ⟨t, ht⟩ : ∃ t, t = (v.stopLane l q).answer (commandOf s 0x04 (laneFieldOf l) q) .ok (modeDetail .off) := ⟨_, rfl⟩
  have htlane : t.lane l = (x.stopBlocks l (s.now + n) .stopped).1 := by
    rw [ht, answer_lane, stopLane_lane, hlane, hnow, ← hx]
  rw [← ht] at hother hrtu hcmu hsram hqueue hsnap
  refine ⟨t, ?_, ?_, fun w => ?_, hother, hrtu, hcmu, hsram, ?_, hsnap⟩
  · rw [exec_laneStop hready.toPortReady hready.idle, State.commandStop, withLane_of_lane _ (l := l) rfl, ← hv, hlane, if_neg hm,
      ht]
    rfl
  · rw [htlane, stopBlocks_eq, hqueued, hpendings, hx]
    rfl
  · rw [htlane, stopBlocks_eq]
    refine (valve_mapValves x _ w).trans ((cancelValve_eq x _ _).trans ?_)
    rw [hx]
    rfl
  · rw [hqueue, hrecords]
    split <;> rfl

/-- Settles O24: the snapshots of both lanes at one event, the owed marks, and the counters cleared after the copy. -/
theorem statsSnapshotCopiesAndClears : Obligations.StatsSnapshotCopiesAndClears := by
  intro s n u f q hready hflag
  obtain ⟨v, hv⟩ : ∃ v, v = (((((s.commanded n 0x30 u f q).execute (commandOf s 0x30 f q)).commonWaits.takeSnapshot .lane0
      .command).takeSnapshot .lane1 .command).owe .lane0).owe .lane1 := ⟨_, rfl⟩
  have hreport (l : LaneId) : v.rwu.report l =
      { owed := true, generation := (s.rwu.report l).generation
        snapshot := some
          { counters := (s.lane l).counters, mode := (s.lane l).mode, clockState := (s.lane l).clock.state
            period := (s.lane l).clock.pq / 16, ln := (s.lane l).clock.ln, cause := .command
            age := ((s.rwu.report l).snapshot.map Snapshot.age).getD (s.events + 1) } } := by
    have hage (o : Option Snapshot) (e : Nat) :
        (match o with | some old => old.age | none => e) = (o.map Snapshot.age).getD e := by cases o <;> rfl
    rw [hv]
    cases l
    · rw [← hage]
      rfl
    · rw [← hage]
      rfl
  have hlane (l : LaneId) : v.lane l = s.lane l := by rw [hv]; cases l <;> rfl
  obtain ⟨t, ht⟩ : ∃ t, t = if s.cmu.shadow[0].toNat = 1 then v.clearCounters else v := ⟨_, rfl⟩
  have hexec : exec (.statsSnapshot n u f q) s = .next t := by
    rw [exec_statsSnapshot hready.toPortReady hready.idle, State.commandStats,
      if_neg (show ¬ 1 < (commandOf s 0x30 f q).arg 0 from Nat.not_lt.2 hflag), ht, hv]
    rfl
  have hrest : t.rwu = v.rwu ∧ t.cmu = v.cmu ∧ t.rtu = v.rtu ∧ t.sram = v.sram := by
    rw [ht]
    split <;> exact ⟨rfl, rfl, rfl, rfl⟩
  have htlane (l : LaneId) : t.lane l =
      { s.lane l with counters := if s.cmu.shadow[0].toNat = 1 then {} else (s.lane l).counters } := by
    rw [ht, ← hlane l]
    split
    · cases l <;> rfl
    · rfl
  obtain ⟨hrwu, hcmu, hrtu, hsram⟩ := hrest
  refine ⟨t, hexec, ?_, ?_, ?_, ?_, ?_, ?_, fun l => ⟨?_, ?_,
    ⟨_, (congrArg (fun w : Rwu => (w.report l).snapshot) hrwu).trans (congrArg LaneReport.snapshot (hreport l)), rfl, rfl, rfl, rfl,
      rfl, rfl⟩, htlane l⟩⟩
  · rw [hcmu, hv]
    rfl
  · rw [hrtu, hv]
    rfl
  · rw [hsram, hv]
    rfl
  · rw [hrwu, hv]
    rfl
  · rw [hrwu, hv]
    rfl
  · rw [hrwu, hv]
    rfl
  · rw [hrwu, hreport]
  · rw [hrwu, hreport]

end Sys2Proof.Machine

/-! ## Proofs: entries of the observation FIFO (sections 1.1 to 1.5, 2.1 to 2.3, 10.4; O29, O31, O32, O35, O36) -/
namespace Sys2Proof.Machine

/-! ### The entry at the head -/

theorem slotOf_of_entryAt {e : FifoEntry} {l : LaneId} {slot : BitVec 4} {w : Nat} (h : entryAt e l slot w) (hw : w < 4096) :
    slotOf e.offset = slot := by
  have hslot := slot.isLt
  apply BitVec.eq_of_toNat_eq
  unfold entryAt at h
  simp only [slotOf, BitVec.extractLsb'_toNat, Nat.shiftRight_eq_div_pow]
  cases l <;> simp only [laneNumber] at h <;> omega

/-- The kind of an entry by its slot word (R1). -/
theorem kind_of_entryAt_end {e : FifoEntry} {l : LaneId} {slot : BitVec 4} (h : entryAt e l slot 4095) :
    e.kind = if e.be = 0xF then .endWrite else .partialEnd := by
  have hw := slotWordOf_of_entryAt h (by decide)
  have hplace : slotPlace (slotWordOf e.offset) = .endWord := by rw [slotPlace, if_neg (by omega), if_pos hw]
  simp only [FifoEntry.kind, hplace, fullWrite, fullEnables, beq_iff_eq]

theorem kind_of_entryAt_front {e : FifoEntry} {l : LaneId} {slot : BitVec 4} {c : Nat} (hc : c < 1024)
    (h : entryAt e l slot (1024 + c)) : e.kind = if e.be = 0xF then .frontPixel c else .partialPixel := by
  have hw := slotWordOf_of_entryAt h (by omega)
  have hplace : slotPlace (slotWordOf e.offset) = .front c := by
    rw [slotPlace, if_neg (by omega), if_neg (by omega), if_pos (by omega), hw, Nat.add_sub_cancel_left]
  simp only [FifoEntry.kind, hplace, fullWrite, fullEnables, beq_iff_eq]

theorem kind_of_entryAt_rear {e : FifoEntry} {l : LaneId} {slot : BitVec 4} {c : Nat} (hc : c < 1024)
    (h : entryAt e l slot (2048 + c)) : e.kind = if e.be = 0xF then .rearPixel c else .partialPixel := by
  have hw := slotWordOf_of_entryAt h (by omega)
  have hplace : slotPlace (slotWordOf e.offset) = .rear c := by
    rw [slotPlace, if_neg (by omega), if_neg (by omega), if_neg (by omega), if_pos (by omega), hw, Nat.add_sub_cancel_left]
  simp only [FifoEntry.kind, hplace, fullWrite, fullEnables, beq_iff_eq]

/-! ### An event that hands no line -/

theorem headGone_lane (s : State) (n : Nat) (rest : List FifoEntry) (l : LaneId) : (headGone s n rest).lane l = s.lane l := by
  cases l <;> rfl

/-- An intake event that hands no line and leaves the quiet report ends with its own work. -/
theorem endIntake_of_handed {v : State} {l : LaneId} {x : Lane} (hslot : v.cmu.executing = none → v.cmu.slot = none)
    (h : x.Handed 0 (v.lane l)) : v.endIntake l x = v :=
  endIntake_same hslot (by rw [h.processed]; simp) h.quiet

section
variable {s : State} {e : FifoEntry} {rest : List FifoEntry} (n : Nat) (hs : s.Settled) (hfifo : s.ptu.fifo = e :: rest)
  (hstall : s.ptu.stall = none)
include hs hfifo hstall

/-- The departure of the head, if its judgement hands no line (R187). -/
theorem exec_entry_handing_none {l : LaneId} {v : State} (hl : ringLane e.offset = l)
    (hv : (headGone s n rest).judgeEntry e = v) (hslot : v.cmu.executing = none → v.cmu.slot = none)
    (h : (s.lane l).Handed 0 (v.lane l)) : exec (.entryLeavesFifo n) s = .next v := by
  rw [exec_entryLeavesFifo n hs hfifo hstall, hl, hv, endIntake_of_handed hslot h]

/-- A judgement that writes one lane and hands no line. -/
theorem exec_entry_modLane {l : LaneId} {f : Lane → Lane} (hl : ringLane e.offset = l)
    (hv : (headGone s n rest).judgeEntry e = (headGone s n rest).modLane l f) (h : (s.lane l).Handed 0 (f (s.lane l))) :
    exec (.entryLeavesFifo n) s = .next ((headGone s n rest).modLane l f) := by
  refine exec_entry_handing_none n hs hfifo hstall hl hv ?_ ?_
  · rw [modLane_cmu]
    exact slot_of_settled hs
  · rw [lane_modLane_self, headGone_lane]
    exact h

theorem exec_entry_stray {l : LaneId} (hl : ringLane e.offset = l)
    (hv : (headGone s n rest).judgeEntry e = (headGone s n rest).modLane l Lane.stray) :
    exec (.entryLeavesFifo n) s = .next ((headGone s n rest).modLane l Lane.stray) :=
  exec_entry_modLane n hs hfifo hstall hl hv (.of_same rfl rfl rfl rfl rfl rfl rfl id rfl)

end

/-- In RUN and DRAIN an entry is sorted, whatever its kind (R2). -/
theorem judgeEntry_of_sorting {s : State} {e : FifoEntry} {l : LaneId} (hl : ringLane e.offset = l)
    (hm : (s.lane l).mode = .run ∨ (s.lane l).mode = .drain) : s.judgeEntry e = s.judgeSorting l e := by
  obtain hm | hm := hm <;> simp only [State.judgeEntry, hl, hm]

theorem judgeEntry_of_hold {s : State} {e : FifoEntry} {l : LaneId} (hl : ringLane e.offset = l)
    (hm : (s.lane l).mode = .hold) : s.judgeEntry e = s.judgeHolding l e := by simp only [State.judgeEntry, hl, hm]

/-- Settles O32: OFF and FAULT judge no entry, HOLD no entry but headers. -/
theorem entriesDroppedOutsideRuns : Obligations.EntriesDroppedOutsideRuns := by
  intro s n l slot w e rest hs hfifo hstall hw hat hm
  have hl := ringLane_of_entryAt hat hw
  refine exec_entry_handing_none n hs hfifo hstall hl ?_ (slot_of_settled hs) (by rw [headGone_lane]; exact .refl _)
  have hlane : ((headGone s n rest).lane (ringLane e.offset)).mode = (s.lane l).mode := by rw [headGone_lane, hl]
  obtain hm | hm | ⟨hm, hnot⟩ := hm
  · simp only [State.judgeEntry, hlane, hm]
  · simp only [State.judgeEntry, hlane, hm]
  · rw [judgeEntry_of_hold hl (by rw [headGone_lane]; exact hm), State.judgeHolding]
    have hslot := slotWordOf_of_entryAt hat hw
    have hplace : slotPlace (slotWordOf e.offset) ≠ .header := by
      rw [slotPlace, if_neg (by omega)]
      split
      · nofun
      · split
        · nofun
        · split <;> nofun
    have hkind : e.kind ≠ .header ∧ e.kind ≠ .malformedHeader := by
      unfold FifoEntry.kind
      split
      · exact absurd (by assumption) hplace
      all_goals first | (split <;> exact ⟨nofun, nofun⟩) | exact ⟨nofun, nofun⟩
    split
    · exact absurd (by assumption) hkind.1
    · exact absurd (by assumption) hkind.2
    all_goals rfl

/-! ### Headers -/

/-- The distance of a header from LN, as a number (R5). -/
theorem headerDistance_toNat (ln : LineNo) (h : BitVec 16) :
    (headerDistance ln h).toNat = (ln.toNat % 65536 + 65536 - h.toNat) % 65536 := by
  have hln := ln.isLt
  have hh := h.isLt
  simp only [headerDistance, numberOf, BitVec.toNat_sub, BitVec.extractLsb'_toNat, Nat.shiftRight_zero]
  omega

/-- The judgement of a header by its distance d (R5). -/
theorem judgeHeader_eq {ln expected n : LineNo} {h : BitVec 16} {d : Nat}
    (hd : d = (ln.toNat % 65536 + 65536 - h.toNat) % 65536) (hn : n = ln - BitVec.ofNat 32 d) :
    judgeHeader ln expected h =
      if 32768 ≤ d then .ahead else if (n - expected).toInt < 0 then .stale n else .accepted n := by
  have hdist := (headerDistance_toNat ln h).trans hd.symm
  have hline : ln - (headerDistance ln h).setWidth 32 = n := by
    rw [hn, ← hdist, BitVec.ofNat_toNat]
  simp only [judgeHeader, hdist, hline, lineBefore, lineDiff, decide_eq_true_eq]

theorem judgedHeader_eq {s : State} {l : LaneId} {slot : BitVec 4} {n : LineNo} {h : BitVec 16} {d : Nat} (f : LineNo → State)
    (hd : d = ((s.lane l).clock.ln.toNat % 65536 + 65536 - h.toNat) % 65536) (hn : n = (s.lane l).clock.ln - BitVec.ofNat 32 d) :
    s.judgedHeader l slot h f =
      if 32768 ≤ d then s.headerAhead l slot h
      else if (n - (s.lane l).expected).toInt < 0 then s.headerStale l slot h n else f n := by
  rw [State.judgedHeader, judgeHeader_eq hd hn]
  by_cases hfar : 32768 ≤ d
  · simp only [if_pos hfar]
  · by_cases hbefore : (n - (s.lane l).expected).toInt < 0
    · simp only [if_neg hfar, if_pos hbefore]
    · simp only [if_neg hfar, if_neg hbefore]

/-- A full write of a slot word 0 with the marker is a header (R1). -/
theorem kind_of_header {e : FifoEntry} {l : LaneId} {slot : BitVec 4} {h : BitVec 16} (hat : entryAt e l slot 0) (hbe : e.be = 0xF)
    (hdata : e.data = 0x4C4E#16 ++ h) : e.kind = .header ∧ numberOf e.data = h := by
  have hmarker : (0x4C4E#16 ++ h : BitVec 32).extractLsb' 16 16 = 0x4C4E#16 := by
    have hh := h.isLt
    apply BitVec.eq_of_toNat_eq
    simp only [BitVec.extractLsb'_toNat, toNat_append, Nat.shiftRight_eq_div_pow, BitVec.toNat_ofNat]
    omega
  have hnumber : (0x4C4E#16 ++ h : BitVec 32).extractLsb' 0 16 = h := by
    have hh := h.isLt
    apply BitVec.eq_of_toNat_eq
    simp only [BitVec.extractLsb'_toNat, toNat_append, Nat.shiftRight_zero, BitVec.toNat_ofNat]
    omega
  rw [kind_of_entryAt_zero hat, hdata, if_pos ⟨hbe, hmarker⟩]
  exact ⟨rfl, hnumber⟩

/-- A header in RUN or DRAIN, with the assembly NO_LINE. -/
theorem sortingHeader_of_no_line {s : State} {l : LaneId} (h : (s.lane l).assembly = none) (slot : BitVec 4) (k : BitVec 16) :
    s.sortingHeader l slot k =
      s.judgedHeader l slot k fun n => (s.swapLane l).modLane l fun x => x.openLine slot k n := by
  simp only [State.sortingHeader, h]

/-- With a line open the header damages it first (R7). -/
theorem sortingHeader_of_open {s : State} {l : LaneId} {a : Assembly} (h : (s.lane l).assembly = some a) (slot : BitVec 4)
    (k : BitVec 16) : s.sortingHeader l slot k = (s.damageLine l a .restart).sortingHeader l slot k := by
  have hnone : ((s.damageLine l a .restart).lane l).assembly = none := by
    rw [damageLine_lane]
    rfl
  rw [sortingHeader_of_no_line hnone]
  simp only [State.sortingHeader, h]

theorem openLine_eq (x : Lane) (slot : BitVec 4) (h : BitVec 16) (n : LineNo) :
    x.openLine slot h n = { x with assembly := some (openedLine x slot h n) } := by
  have hrear : (x.block.rearEnable == 1) = decide (x.block.rearEnable = 1) := by rw [Bool.eq_iff_iff, beq_iff_eq, decide_eq_true_eq]
  rw [Lane.openLine, openedLine, hrear]

theorem swapLane_of_slot {s : State} {l : LaneId} (hslot : s.cmu.executing = none → s.cmu.slot = none)
    (hwait : s.swapWaiting l = true → s.cmu.slot = none) :
    (s.swapLane l).cmu.executing = none → (s.swapLane l).cmu.slot = none := by
  cases hw : s.swapWaiting l with
  | false => rwa [swapLane_of_not_waiting hw]
  | true => exact fun _ => (worked_swapLane s (Set.mem_singleton l)).slot.trans (hwait hw)

theorem headerAhead_handed (s : State) (l : LaneId) (slot : BitVec 4) (h : BitVec 16) :
    (s.lane l).Handed 0 ((s.headerAhead l slot h).lane l) := by
  rw [State.headerAhead, record_lane, lane_modLane_self]
  exact .of_same rfl rfl rfl rfl rfl rfl rfl id rfl

theorem headerStale_handed (s : State) (l : LaneId) (slot : BitVec 4) (h : BitVec 16) (n : LineNo) :
    (s.lane l).Handed 0 ((s.headerStale l slot h n).lane l) := by
  rw [State.headerStale, record_lane, lane_modLane_self]
  exact .of_same rfl rfl rfl rfl rfl rfl rfl id rfl

/-- Settles O29: the distance decides, and what each judgement does hands no line. -/
theorem headerJudgedByDistance : Obligations.HeaderJudgedByDistance := by
  intro s after l slot h e rest d n hs hfifo hstall hat hbe hdata hassembly hwait hd hn hmode
  have hl := ringLane_of_entryAt hat (by decide)
  obtain ⟨hkind, hnumber⟩ := kind_of_header hat hbe hdata
  have hslotof := slotOf_of_entryAt hat (by decide)
  obtain ⟨g, hg⟩ : ∃ g, g = headGone s after rest := ⟨_, rfl⟩
  have hlane : g.lane l = s.lane l := hg ▸ headGone_lane s after rest l
  have hcmu : g.cmu.executing = none → g.cmu.slot = none := by rw [hg]; exact slot_of_settled hs
  have hgd : d = ((g.lane l).clock.ln.toNat % 65536 + 65536 - h.toNat) % 65536 := by rw [hlane]; exact hd
  have hgn : n = (g.lane l).clock.ln - BitVec.ofNat 32 d := by rw [hlane]; exact hn
  have hjudged : g.judgeEntry e = if (g.lane l).mode = .hold then g.judgedHeader l slot h fun n => g.setExpected l (n + 1)
      else g.judgedHeader l slot h fun n => (g.swapLane l).modLane l fun x => x.openLine slot h n := by
    split
    · rename_i hhold
      rw [judgeEntry_of_hold hl hhold]
      simp only [State.judgeHolding, hkind, hnumber, hslotof, State.trackedHeader]
    · rename_i hnot
      rw [judgeEntry_of_sorting hl (by rw [← hlane] at hmode; tauto), ← sortingHeader_of_no_line (by rw [hlane]; exact hassembly)]
      simp only [State.judgeSorting, hkind, hnumber, hslotof]
  rw [judgedHeader_eq _ hgd hgn, judgedHeader_eq _ hgd hgn, hlane] at hjudged
  have hevent {v : State} (hv : g.judgeEntry e = v) (hc : v.cmu.executing = none → v.cmu.slot = none)
      (hh : (g.lane l).Handed 0 (v.lane l)) : exec (.entryLeavesFifo after) s = .next v :=
    exec_entry_handing_none after hs hfifo hstall hl (hg ▸ hv) hc (hlane ▸ hh)
  rw [← hg]
  refine ⟨fun hfar => ?_, fun hnear hbefore => ?_, fun hnear hnot => ⟨fun hhold => ?_, fun hhold => ?_⟩⟩
  · simp only [if_pos hfar, ite_self] at hjudged
    rw [← hlane]
    exact hevent hjudged (by simpa only [State.headerAhead, record_cmu, modLane_cmu] using hcmu) (headerAhead_handed _ _ _ _)
  · simp only [if_neg (Nat.not_le.2 hnear), if_pos hbefore, ite_self] at hjudged
    exact hevent hjudged (by simpa only [State.headerStale, record_cmu, modLane_cmu] using hcmu) (headerStale_handed _ _ _ _ _)
  · simp only [if_neg (Nat.not_le.2 hnear), if_neg (Int.not_lt.2 hnot), if_pos hhold] at hjudged
    exact hevent hjudged (by simpa only [State.setExpected, modLane_cmu] using hcmu) (handed_setExpected _ _ _)
  · simp only [if_neg (Nat.not_le.2 hnear), if_neg (Int.not_lt.2 hnot), if_neg hhold] at hjudged
    have hopen : ((g.swapLane l).modLane l fun x => x.openLine slot h n) =
        (g.swapLane l).modLane l fun x => { x with assembly := some (openedLine x slot h n) } := by simp only [openLine_eq]
    rw [← hopen]
    refine hevent hjudged ?_ ((handed_swapLane g l).trans (handed_modLane (.of_same rfl rfl rfl rfl rfl rfl rfl id rfl)))
    rw [modLane_cmu]
    exact swapLane_of_slot hcmu (by rw [hg]; exact hwait)

/-! ### RESTART -/

/-- The damage of an open line leaves what the part owes. -/
theorem settled_damageLine {s : State} (h : s.Settled) (l : LaneId) (a : Assembly) (r : LineFaultReason) :
    (s.damageLine l a r).Settled := by cases l <;> exact h

theorem headGone_damageLine (s : State) (n : Nat) (rest : List FifoEntry) (l : LaneId) (a : Assembly) (r : LineFaultReason) :
    headGone (s.damageLine l a r) n rest = (headGone s n rest).damageLine l a r := by cases l <;> rfl

/-- The end of an intake event looks at the lines processed and the quiet report from before, and at nothing more. -/
theorem endIntake_congr {v : State} {l : LaneId} {x y : Lane} (h : x.Handed 0 y) : v.endIntake l y = v.endIntake l x := by
  have hprocessed : y.counters.linesProcessed = x.counters.linesProcessed := by rw [h.processed]; simp
  simp only [State.endIntake, hprocessed, h.quiet]

/-- Settles O35: the damage is the first thing the header does, and the end of the event does not see it. -/
theorem restartDamagesOpenLine : Obligations.RestartDamagesOpenLine := by
  intro s after l slot h a e rest damaged hs hfifo hstall hat hbe hdata hmode hassembly _ hdamaged
  obtain rfl : damaged = s.damageLine l a .restart := hdamaged
  have hl := ringLane_of_entryAt hat (by decide)
  obtain ⟨hkind, -⟩ := kind_of_header hat hbe hdata
  have hptu : (s.damageLine l a .restart).ptu = s.ptu := (samePath_damageLine s l a .restart).ptu
  have hdlane := damageLine_lane s l a .restart
  have hmode' : ((s.damageLine l a .restart).lane l).mode = .run ∨ ((s.damageLine l a .restart).lane l).mode = .drain := by
    rw [hdlane]
    exact hmode
  have hsorted (t : State) (ht : (t.lane l).mode = .run ∨ (t.lane l).mode = .drain) :
      t.judgeEntry e = t.sortingHeader l (slotOf e.offset) (numberOf e.data) := by
    rw [judgeEntry_of_sorting hl ht]
    simp only [State.judgeSorting, hkind]
  rw [exec_entryLeavesFifo after hs hfifo hstall, exec_entryLeavesFifo after (settled_damageLine hs l a _)
    (by rw [hptu]; exact hfifo) (by rw [hptu]; exact hstall), hl, hsorted _ (by rw [headGone_lane]; exact hmode),
    hsorted _ (by rw [headGone_lane]; exact hmode'), headGone_damageLine, sortingHeader_of_open (by rw [headGone_lane]; exact hassembly),
    endIntake_congr (handed_damageLine s l a .restart)]

/-! ### Stalls -/

theorem handed_judgeEntry (s : State) (e : FifoEntry) :
    ∃ n < 2 ^ 32, (s.lane (ringLane e.offset)).Handed n ((s.judgeEntry e).lane (ringLane e.offset)) := by
  have hnone : ∃ n < 2 ^ 32, (s.lane (ringLane e.offset)).Handed n (s.lane (ringLane e.offset)) := ⟨0, by decide, .refl _⟩
  unfold State.judgeEntry
  dsimp only
  split
  · exact hnone
  · exact handed_judgeSorting s _ e
  · exact handed_judgeSorting s _ e
  · unfold State.judgeHolding
    split
    · exact ⟨0, by decide, handed_judgedHeader fun n => handed_setExpected s _ _⟩
    · exact ⟨0, by decide, handed_stray s _⟩
    all_goals exact hnone
  · exact hnone

theorem evaluated_counters (x : Lane) (q : Bool) (n : Nat) : (x.evaluated q n).counters = x.counters := by
  unfold Lane.evaluated
  split <;> rfl

/-- With no command pending an entry's departure loses no write. -/
theorem leaveFifo_lostWrites {s : State} (hslot : s.cmu.slot = none) (m : LaneId) :
    (s.leaveFifo.lane m).counters.lostWrites = (s.lane m).counters.lostWrites := by
  unfold State.leaveFifo
  split
  · rename_i e rest _
    have hlane (k : LaneId) : ({ s with ptu := s.ptu.leave rest } : State).lane k = s.lane k := by cases k <;> rfl
    have hwork := worked_judgeEntry { s with ptu := s.ptu.leave rest } e
    rw [endIntake_of_slot_none (hwork.slot.trans hslot)]
    by_cases hm : m = ringLane e.offset
    · obtain ⟨n, -, hhanded⟩ := handed_judgeEntry { s with ptu := s.ptu.leave rest } e
      rw [hm, closeIntake_lane, evaluated_counters, hhanded.lost, hlane]
    · rw [(worked_closeIntake _ (Set.mem_singleton _) _).other m hm, hwork.other m hm, hlane]
  · rfl

/-- Settles O36: the limit by the time that has passed, the departure by `Ptu.leave`. -/
theorem stallEndsInLossOrAdmission : Obligations.StallEndsInLossOrAdmission := by
  intro s n h l hs hstall hl
  have hexec : exec (.stallLimit n) s = .next (s.pass n).stallEnds := by
    rw [← begin_of_settled hs]
    rfl
  refine ⟨fun hdue => ?_, fun hearly => ?_, fun e rest hfifo => ?_⟩
  · rw [hexec, ← hl]
    have hdue' : h.since + Config.stallClocks ≤ (s.pass n).now := hdue
    simp only [State.stallEnds, pass_ptu, hstall, if_pos hdue']
    rfl
  · rw [hexec]
    have hearly' : ¬ h.since + Config.stallClocks ≤ (s.pass n).now := Nat.not_le.2 hearly
    simp only [State.stallEnds, pass_ptu, hstall, if_neg hearly']
  · refine ⟨(s.pass n).leaveFifo, by rw [← begin_of_settled hs]; rfl, ?_, fun m => ?_⟩
    · have hpath (t : State) : ((t.judgeEntry e).endIntake (ringLane e.offset) (t.lane (ringLane e.offset))).ptu = t.ptu :=
        ((samePath_judgeEntry t e).trans (samePath_endIntake _ _ _)).ptu
      simp only [State.leaveFifo, pass_ptu, hfifo, hpath, Ptu.leave, hstall]
    · by_cases hslot : s.cmu.slot = none
      · refine .inl ((leaveFifo_lostWrites (s := s.pass n) hslot m).trans ?_)
        rw [pass_lane]
      · exact .inr hslot

/-! ### Pixels -/

theorem frontPixel_open {x : Lane} {a : Assembly} {slot : BitVec 4} (ha : x.assembly = some a) (hslot : a.slot = slot) (c : Nat)
    (w : Word) : x.frontPixel slot c w =
      { x with assembly := some { a with front := a.front.setIfInBounds c (some (classify x.activeTable w)) } } := by
  simp only [Lane.frontPixel, ha, hslot, if_true]

theorem rearPixel_open {x : Lane} {a : Assembly} {slot : BitVec 4} (ha : x.assembly = some a) (hslot : a.slot = slot)
    (hrear : a.rearMode = true) (c : Nat) (w : Word) : x.rearPixel slot c w =
      { x with assembly := some { a with rear := a.rear.setIfInBounds c (some (classify x.activeTable w)) } } := by
  simp only [Lane.rearPixel, ha, hslot, hrear, and_self, if_true]

theorem frontPixel_stray {x : Lane} {slot : BitVec 4}
    (h : x.assembly = none ∨ ∃ a, x.assembly = some a ∧ a.slot ≠ slot) (c : Nat) (w : Word) : x.frontPixel slot c w = x.stray := by
  obtain h | ⟨a, ha, hslot⟩ := h
  · simp only [Lane.frontPixel, h]
  · simp only [Lane.frontPixel, ha, hslot, if_false]

theorem rearPixel_stray {x : Lane} {slot : BitVec 4}
    (h : x.assembly = none ∨ ∃ a, x.assembly = some a ∧ (a.slot ≠ slot ∨ a.rearMode = false)) (c : Nat) (w : Word) :
    x.rearPixel slot c w = x.stray := by
  obtain h | ⟨a, ha, hslot⟩ := h
  · simp only [Lane.rearPixel, h]
  · have hnot : ¬ (a.slot = slot ∧ a.rearMode = true) := fun ⟨h1, h2⟩ => by
      obtain h | h := hslot
      · exact h h1
      · simp [h] at h2
    simp only [Lane.rearPixel, ha, hnot, if_false]

theorem endWord_stray {s : State} {l : LaneId} {slot : BitVec 4}
    (h : (s.lane l).assembly = none ∨ ∃ a, (s.lane l).assembly = some a ∧ a.slot ≠ slot) (w : Word) :
    s.endWord l slot w = s.modLane l Lane.stray := by
  obtain h | ⟨a, ha, hslot⟩ := h
  · simp only [State.endWord, h]
  · simp only [State.endWord, ha, hslot, if_false]

/-- A lane is written by what its own state makes of a function. -/
theorem modLane_congr {s : State} {l : LaneId} {f g : Lane → Lane} (h : f (s.lane l) = g (s.lane l)) : s.modLane l f = s.modLane l g := by
  rw [State.modLane, State.modLane, h]

theorem ofCode_code {k : Nat} (h : k ≤ 6) : (PixelClass.ofCode k).code = k := by
  have hall : ∀ k : Fin 7, (PixelClass.ofCode k.val).code = k.val := by decide
  exact hall ⟨k, by omega⟩

theorem ofCode_eq_bg {k : Nat} : PixelClass.ofCode k = .bg ↔ k = 0 := by
  unfold PixelClass.ofCode
  split
  · exact ⟨fun _ => rfl, fun _ => rfl⟩
  all_goals exact ⟨nofun, fun h => by simp_all⟩

theorem stoneBand_code (g : GradeBlock) (q : Nat) {k : Nat} (h : k ≤ 6) :
    (stoneBand g q (PixelClass.ofCode k)).code = if k ≠ 0 ∧ g.stoneQLo ≤ q ∧ q ≤ g.stoneQHi then 6 else k := by
  unfold stoneBand
  by_cases hband : k ≠ 0 ∧ g.stoneQLo ≤ q ∧ q ≤ g.stoneQHi
  · rw [if_pos hband, if_pos (show PixelClass.ofCode k ≠ .bg ∧ _ from ⟨mt ofCode_eq_bg.mp hband.1, hband.2⟩)]
    rfl
  · have hclass : ¬ (PixelClass.ofCode k ≠ .bg ∧ g.stoneQLo ≤ q ∧ q ≤ g.stoneQHi) :=
      fun h => hband ⟨mt ofCode_eq_bg.mpr h.1, h.2⟩
    rw [if_neg hband, if_neg hclass, ofCode_code h]

/-- The channels of a pixel word, from its top byte down (11.2). -/
theorem pixel_channels (nir r g b : BitVec 8) :
    pixelNir (nir ++ r ++ g ++ b : BitVec 32) = nir.toNat ∧ pixelRed (nir ++ r ++ g ++ b : BitVec 32) = r.toNat ∧
      pixelGreen (nir ++ r ++ g ++ b : BitVec 32) = g.toNat ∧ pixelBlue (nir ++ r ++ g ++ b : BitVec 32) = b.toNat := by
  have hn := nir.isLt
  have hr := r.isLt
  have hg := g.isLt
  have hb := b.isLt
  simp only [pixelNir, pixelRed, pixelGreen, pixelBlue, BitVec.extractLsb'_toNat, toNat_append, Nat.shiftRight_eq_div_pow]
  omega

/-- An entry of the colour map is a byte of its word (R29). -/
theorem mapEntry_eq (map : Vector Word 256) {cell : Nat} {i : Fin 256} (hi : i.val = cell / 4) :
    mapEntry map cell = map[i].toNat / 2 ^ (8 * (cell % 4)) % 256 := by
  have hat : map[cell / 4]? = some map[i] := by
    rw [← hi]
    simp
  rw [mapEntry, hat, Option.getD_some, BitVec.extractLsb'_toNat, Nat.shiftRight_eq_div_pow]

/-- Settles O31: where a pixel or an end write goes, and the class of a pixel. -/
theorem pixelStoredOrStray : Obligations.PixelStoredOrStray := by
  refine ⟨fun s n l slot c e rest rear hs hfifo hstall hc hat hm => ?_, fun s n l slot e rest hs hfifo hstall hat hm hbad => ?_,
    fun tb nir r g b L Q cell code Yd i hL hY hQ hcell hi hcode hcode6 => ?_⟩
  · have hw : (if rear then 2048 + c else 1024 + c) < 4096 := by split <;> omega
    have hl := ringLane_of_entryAt hat hw
    have hslot := slotOf_of_entryAt hat hw
    have hkind : e.kind = if e.be = 0xF then (if rear then .rearPixel c else .frontPixel c) else .partialPixel := by
      cases rear
      · exact kind_of_entryAt_front hc hat
      · exact kind_of_entryAt_rear hc hat
    have hjudged : (headGone s n rest).judgeEntry e = (headGone s n rest).judgeSorting l e :=
      judgeEntry_of_sorting hl (by rwa [headGone_lane])
    have hlane := headGone_lane s n rest l
    refine ⟨fun a hbe ha haslot hrear => ?_, fun hbad => ?_⟩
    · rw [if_pos hbe] at hkind
      refine exec_entry_modLane n hs hfifo hstall hl ?_ (.of_same rfl rfl rfl rfl rfl rfl rfl id rfl)
      rw [hjudged]
      cases rear
      · simp only [Bool.false_eq_true, if_false] at hkind
        simp only [State.judgeSorting, hkind, hslot]
        exact modLane_congr (by rw [hlane]; exact frontPixel_open ha haslot c _)
      · simp only [if_true] at hkind
        simp only [State.judgeSorting, hkind, hslot]
        exact modLane_congr (by rw [hlane]; exact rearPixel_open ha haslot (hrear rfl) c _)
    · refine exec_entry_stray n hs hfifo hstall hl ?_
      rw [hjudged]
      by_cases hbe : e.be = 0xF
      · have hbad := hbad.resolve_left (not_not.2 hbe)
        rw [if_pos hbe] at hkind
        cases rear
        · simp only [Bool.false_eq_true, if_false] at hkind
          simp only [State.judgeSorting, hkind, hslot]
          refine modLane_congr ?_
          rw [hlane]
          refine frontPixel_stray (hbad.imp_right fun ⟨a, ha, h⟩ => ⟨a, ha, ?_⟩) c _
          exact h.resolve_right fun h => absurd h.1 (by decide)
        · simp only [if_true] at hkind
          simp only [State.judgeSorting, hkind, hslot]
          refine modLane_congr ?_
          rw [hlane]
          exact rearPixel_stray (hbad.imp_right fun ⟨a, ha, h⟩ => ⟨a, ha, h.imp_right And.right⟩) c _
      · rw [if_neg hbe] at hkind
        simp only [State.judgeSorting, hkind]
  · have hl := ringLane_of_entryAt hat (by decide)
    have hslot := slotOf_of_entryAt hat (by decide)
    have hkind := kind_of_entryAt_end hat
    refine exec_entry_stray n hs hfifo hstall hl ?_
    rw [judgeEntry_of_sorting hl (by rwa [headGone_lane])]
    by_cases hbe : e.be = 0xF
    · rw [if_pos hbe] at hkind
      simp only [State.judgeSorting, hkind, hslot]
      exact endWord_stray (by rw [headGone_lane]; exact hbad.resolve_left (not_not.2 hbe)) _
    · rw [if_neg hbe] at hkind
      simp only [State.judgeSorting, hkind]
  · obtain ⟨hnir, hred, hgreen, hblue⟩ := pixel_channels nir r g b
    have hL255 : L ≤ 255 := by
      rw [hL]
      exact brightness_le (Nat.le_of_lt_succ r.isLt) (Nat.le_of_lt_succ g.isLt) (Nat.le_of_lt_succ b.isLt)
    have hbright : brightness r.toNat g.toNat b.toNat = L := hL.symm
    have hyellow : yellowness r.toNat g.toNat b.toNat = Yd := hY.symm
    have hindex : mapIndex (nir ++ r ++ g ++ b : BitVec 32) = cell := by
      simp only [mapIndex, hred, hgreen, hblue, hbright, hyellow, brightnessCell, yellownessCell, hcell]
    refine ⟨hL255, ?_, ?_⟩
    · rw [hcell]
      omega
    · simp only [classify, hnir, hred, hgreen, hblue, hbright, hindex, mapEntry_eq _ hi, ← hcode, stoneIndex, ← hQ]
      exact stoneBand_code _ _ hcode6

end Sys2Proof.Machine

/-! ## Proofs: the lines that an end write hands (O33, O34)

An end write hands the skipped lines and then its own. The lane's work and the records it makes add up to one application to the
part that the swap has left (`handSkipped_eq_apply`), and the end of the event then adds the snapshot, the line boundary and the
drain condition (`endIntake_apply`). -/
namespace Sys2Proof.Machine

/-! ### Applications of a lane's work -/

theorem apply_apply (s : State) (l : LaneId) (v w : Lane × List Record) :
    (s.apply l v).apply l w = s.apply l (w.1, v.2 ++ w.2) := by
  cases l <;> simp [State.apply, State.records, State.setLane, List.foldl_append]

theorem apply_unchanged (s : State) (l : LaneId) : s.apply l (s.lane l, []) = s := by rw [apply_nil, setLane_lane]

theorem modLane_apply (s : State) (l : LaneId) (w : Lane × List Record) (f : Lane → Lane) :
    (s.apply l w).modLane l f = s.apply l (f w.1, w.2) := by
  cases l <;> rfl

theorem record_modLane (s : State) (l : LaneId) (f : Lane → Lane) (r : Record) :
    (s.modLane l f).record r = s.apply l (f (s.lane l), [r]) := rfl

/-! ### A lane that does not wait for its swap -/

theorem swapWaiting_congr {s t : State} (h : t.rtu = s.rtu) (l : LaneId) : t.swapWaiting l = s.swapWaiting l := by
  rw [State.swapWaiting, State.swapWaiting, h]

/-- Only a commit in SWAPPING lets a lane wait (R133). -/
theorem swapping_of_swapWaiting {s : State} {l : LaneId} (h : s.swapWaiting l = true) :
    ∃ mask swapped, s.rtu.commit = .swapping mask swapped := by
  unfold State.swapWaiting at h
  split at h
  · cases h
  · cases h
  · exact ⟨_, _, by assumption⟩

theorem maskHas_or_laneBit (m : BitVec 2) (l : LaneId) : maskHas (m ||| laneBit l) l = true := by
  have hall : ∀ m : BitVec 2, maskHas (m ||| laneBit .lane0) .lane0 = true ∧ maskHas (m ||| laneBit .lane1) .lane1 = true := by decide
  cases l
  · exact (hall m).1
  · exact (hall m).2

/-- A lane that has swapped does not wait (R135, R137). -/
theorem swapWaiting_swapLane (s : State) (l : LaneId) : (s.swapLane l).swapWaiting l = false := by
  cases hw : s.swapWaiting l with
  | false => rw [swapLane_of_not_waiting hw, hw]
  | true =>
    obtain ⟨mask, swapped, hcommit⟩ := swapping_of_swapWaiting hw
    rw [swapLane_of_waiting hcommit hw]
    split
    · rw [State.swapWaiting, endCommit_rtu]
    · simp [State.swapWaiting, maskHas_or_laneBit]

/-! ### Lines handed one after another -/

theorem closeObject_eq (x : Lane) : closeObject x.grade.maxArea = fun o => { o with cluster := decide (x.grade.maxArea < o.area) } :=
  rfl

theorem voidHanded_eq (x : Lane) (l : LaneId) (skipped : Bool) :
    (x.lineHanded.count fun c => c.voidLine skipped).voidLine l = voidHanded l skipped x := rfl

/-- A void line is one application of its work to what the swap has left (R12, R134). -/
theorem handVoid_eq_apply (s : State) (l : LaneId) (skipped : Bool) :
    s.handVoid l skipped = (s.swapLane l).apply l (voidHanded l skipped ((s.swapLane l).lane l)) := rfl

theorem handSkipped_eq_apply {s : State} {l : LaneId} (hw : s.swapWaiting l = false) (n : Nat) :
    s.handSkipped l n = s.apply l (skippedHanded l n (s.lane l)) := by
  induction n generalizing s with
  | zero => exact (apply_unchanged s l).symm
  | succ n ih =>
    have hvoid : s.handVoid l true = s.apply l (voidHanded l true (s.lane l)) := by
      rw [handVoid_eq_apply, swapLane_of_not_waiting hw]
    rw [State.handSkipped, hvoid, ih (by rw [swapWaiting_congr (apply_rtu _ _ _), hw]), apply_lane_self, apply_apply]
    rfl

/-- The first skipped line takes the swap that waits; later ones find none. -/
theorem handSkipped_swapped (s : State) (l : LaneId) {n : Nat} (hn : n ≠ 0) :
    s.handSkipped l n = (s.swapLane l).apply l (skippedHanded l n ((s.swapLane l).lane l)) := by
  obtain ⟨n, rfl⟩ := Nat.exists_eq_succ_of_ne_zero hn
  rw [← handSkipped_eq_apply (swapWaiting_swapLane s l), State.handSkipped, State.handSkipped, handVoid_eq_apply, handVoid_eq_apply,
    swapLane_of_not_waiting (swapWaiting_swapLane s l)]

/-- The finished line, void, behind the skipped ones: the first void line takes the swap that waits. -/
theorem handSkipped_handVoid (s : State) (l : LaneId) (n : Nat) :
    (s.handSkipped l n).handVoid l false =
      (s.swapLane l).apply l
        ((voidHanded l false (skippedHanded l n ((s.swapLane l).lane l)).1).1,
          (skippedHanded l n ((s.swapLane l).lane l)).2 ++ (voidHanded l false (skippedHanded l n ((s.swapLane l).lane l)).1).2) := by
  have happly (t : State) (ht : t.swapWaiting l = false) (w : Lane × List Record) :
      (t.apply l w).handVoid l false = t.apply l ((voidHanded l false w.1).1, w.2 ++ (voidHanded l false w.1).2) := by
    rw [handVoid_eq_apply, swapLane_of_not_waiting (by rw [swapWaiting_congr (apply_rtu _ _ _), ht]), apply_lane_self, apply_apply]
  by_cases hn : n = 0
  · subst hn
    exact handVoid_eq_apply s l false
  · rw [handSkipped_swapped s l hn, happly _ (swapWaiting_swapLane s l)]

/-! ### The time and the queue around an intake event -/

theorem headGone_modLane (s : State) (n : Nat) (rest : List FifoEntry) (l : LaneId) (f : Lane → Lane) :
    (headGone s n rest).modLane l f = headGone (s.modLane l f) n rest := by cases l <;> rfl

theorem headGone_endCommit (s : State) (n : Nat) (rest : List FifoEntry) (c : CommandStatus) (d : Word) :
    (headGone s n rest).endCommit c d = headGone (s.endCommit c d) n rest := by
  have hsame : (headGone s n rest).cmu.executing = s.cmu.executing := rfl
  unfold State.endCommit State.completeCommand
  dsimp only
  rw [hsame]
  cases s.cmu.executing <;> rfl

theorem headGone_swapLane (s : State) (n : Nat) (rest : List FifoEntry) (l : LaneId) :
    (headGone s n rest).swapLane l = headGone (s.swapLane l) n rest := by
  cases hw : s.swapWaiting l with
  | false => rw [swapLane_of_not_waiting hw, swapLane_of_not_waiting (s := headGone s n rest) hw]
  | true =>
    obtain ⟨mask, swapped, hcommit⟩ := swapping_of_swapWaiting hw
    rw [swapLane_of_waiting hcommit hw, swapLane_of_waiting (s := headGone s n rest) hcommit hw]
    split
    · rw [← headGone_endCommit, headGone_modLane]
      rfl
    · cases l <;> rfl

/-! ### The end of an event that hands lines -/

/-- A snapshot of a lane takes the place of one that waits and keeps its age (R173). -/
theorem takeSnapshot_eq (s : State) (l : LaneId) (c : SnapshotCause) :
    s.takeSnapshot l c =
      { s with
        rwu := s.rwu.setReport l
          { s.rwu.report l with
            snapshot := some
              { counters := (s.lane l).counters, mode := (s.lane l).mode, clockState := (s.lane l).clock.state
                period := (s.lane l).clock.pq / 16, ln := (s.lane l).clock.ln, cause := c
                age := ((s.rwu.report l).snapshot.map Snapshot.age).getD s.events } } } := by
  unfold State.takeSnapshot
  dsimp only
  cases (s.rwu.report l).snapshot <;> rfl

/-- With lines handed the drain condition of a lane in DRAIN is evaluated. -/
theorem evaluated_of_handed (x : Lane) (q : Bool) {n : Nat} (h : 0 < n) :
    x.evaluated q n = { x with drainDue := if x.mode = .drain then x.drained else x.drainDue } := by
  unfold Lane.evaluated
  by_cases hm : x.mode = .drain
  · rw [if_pos ⟨hm, .inl h⟩, if_pos hm]
  · rw [if_neg fun h => hm h.1, if_neg hm]

/-- The end of an intake event that has handed `n` lines of a lane and left it as `y` (R174, R160, R156). -/
theorem endIntake_apply {s base : State} {l : LaneId} {y : Lane} {n : Nat} (hslot : base.cmu.slot = none)
    (hnow : base.now = s.now) (hevents : base.events = s.events) (hptu : base.ptu = s.ptu) (h : (s.lane l).Handed n y)
    (hpos : 0 < n) (hn : n < 2 ^ 32) (after : Nat) (rest : List FifoEntry) (recs : List Record) :
    ((headGone base after rest).apply l (y, recs)).endIntake l (s.lane l) = linesFinished s base after l n y recs rest := by
  obtain ⟨t, ht⟩ : ∃ t, t = (headGone base after rest).apply l (y, recs) := ⟨_, rfl⟩
  have hlane : t.lane l = y := by rw [ht, apply_lane_self]
  have hrwu : t.rwu = recs.foldl Rwu.enqueue base.rwu := by rw [ht, apply_rwu]; rfl
  have hcmu : t.cmu = base.cmu := by rw [ht, apply_cmu]; rfl
  have htime : t.events = s.events + 1 := by rw [ht, ← hevents]; cases l <;> rfl
  have hsnapshot : t.intervalSnapshot l (s.lane l).counters.linesProcessed n =
      { t with rwu := (linesFinished s base after l n y recs rest).rwu } := by
    unfold State.intervalSnapshot linesFinished
    rw [hlane, Lane.interval]
    dsimp only
    by_cases hdue : 1024 * 4 ^ y.block.statsIntervalCode ≤
        (s.lane l).counters.linesProcessed.toNat % (1024 * 4 ^ y.block.statsIntervalCode) + n
    · rw [if_pos ⟨hpos, hdue⟩, if_pos hdue, takeSnapshot_eq, hlane, hrwu, htime]
    · rw [if_neg fun h => hdue h.2, if_neg hdue, ← hrwu]
  have hboundary (u : State) (hu : u.cmu = base.cmu) : u.lineBoundary l n =
      { u with cmu := { base.cmu with captureDue := base.cmu.captureDue || decide (base.cmu.captureWait = some l) } } := by
    unfold State.lineBoundary
    rw [hu]
    by_cases hwait : base.cmu.captureWait = some l
    · rw [if_pos ⟨hpos, hwait⟩, decide_eq_true hwait, Bool.or_true]
    · rw [if_neg fun h => hwait h.2, decide_eq_false hwait, Bool.or_false, ← hu]
  rw [← ht]
  unfold State.endIntake
  dsimp only
  rw [hlane, h.linesHanded_eq hn, hsnapshot, hboundary { t with rwu := (linesFinished s base after l n y recs rest).rwu } hcmu,
    evaluateDrain_eq, finishCommands_same]
  · have hevaluated : (fun x : Lane => x.evaluated (s.lane l).quiet n) =
        fun x => { x with drainDue := if x.mode = .drain then x.drained else x.drainDue } :=
      funext fun x => evaluated_of_handed x _ hpos
    rw [hevaluated, ht]
    cases l <;> simp [linesFinished, State.apply, State.records, State.modLane, State.setLane, State.lane, headGone, State.pass, hnow,
      hevents, hptu]
  · intro _
    rw [modLane_cmu]
    exact hslot

end Sys2Proof.Machine

/-! ## Proofs: the end write of an open line, complete or damaged (O33, O34) -/
namespace Sys2Proof.Machine

/-! ### The verdict on an end word -/

/-- The two halves of a word agree with marker and number exactly when the word is made of them. -/
theorem markerOf_numberOf_iff (d : Word) (h : BitVec 16) :
    (markerOf d = Config.lineMarker ∧ numberOf d = h) ↔ d = 0x4C4E#16 ++ h := by
  have hd := d.isLt
  have hh := h.isLt
  have hmarker : (0x4C4E : BitVec 16).toNat = 19534 := rfl
  have hliteral : (0x4C4E#16).toNat = 19534 := rfl
  simp only [BitVec.toNat_eq, markerOf, numberOf, Config.lineMarker, BitVec.extractLsb'_toNat, toNat_append,
    Nat.shiftRight_eq_div_pow, hmarker, hliteral]
  omega

theorem verdict_eq (a : Assembly) (d : Word) :
    a.verdict d =
      if d ≠ 0x4C4E#16 ++ a.header then some .endMismatch
      else if a.seen < a.expectedCount then some .incomplete else if a.loss then some .loss else none := by
  have hiff := markerOf_numberOf_iff d a.header
  unfold Assembly.verdict
  by_cases hd : d = 0x4C4E#16 ++ a.header
  · rw [if_neg (not_not.2 hd), if_neg (by rw [← not_and_or, not_not]; exact hiff.2 hd)]
  · rw [if_pos hd, if_pos (by rw [← not_and_or]; exact mt hiff.1 hd)]

/-! ### The merge of the views -/

theorem moreSevere_code (a b : PixelClass) : (a.moreSevere b).code = max a.code b.code := by
  cases a <;> cases b <;> rfl

theorem storedClass_eq (view : Vector (Option PixelClass) 1024) (c : Fin 1024) : storedClass view c.val = view[c].getD .bg := by
  simp [storedClass]

theorem mergeViews_column (a : Assembly) (offset : Int) (c : Fin 1024) :
    (mergeViews a offset)[c.val]? = some (mergedClass a offset c.val) := by simp [mergeViews, c.isLt]

theorem pairedRear_of_no_column {offset : Int} {c : Fin 1024}
    (h : ∀ c' : Fin 1024, (c'.val : Int) ≠ 1023 - (c.val : Int) + offset) : pairedRear offset c.val = none := by
  unfold pairedRear
  refine if_neg fun hrange => ?_
  exact h ⟨(1023 - (c.val : Int) + offset).toNat, by omega⟩ (by simp only; omega)

theorem pairedRear_of_column {offset : Int} {c c' : Fin 1024} (h : (c'.val : Int) = 1023 - (c.val : Int) + offset) :
    pairedRear offset c.val = some c'.val := by
  have hc := c'.isLt
  unfold pairedRear
  rw [if_pos (by omega), ← h]
  rfl

/-- With rear mode on a column is the more severe of its class and of that of the rear column paired with it (R33 to R35). -/
theorem mergedClass_code (a : Assembly) (offset : Int) (c : Fin 1024) (m front : PixelClass)
    (hm : (mergeViews a offset)[c.val]? = some m) (hfront : front = a.front[c].getD .bg) :
    (a.rearMode = false → m = front) ∧
      (a.rearMode = true → ((∀ c' : Fin 1024, (c'.val : Int) ≠ 1023 - (c.val : Int) + offset) → m = front) ∧
        ∀ c' : Fin 1024, (c'.val : Int) = 1023 - (c.val : Int) + offset →
          m.code = max front.code (a.rear[c'].getD .bg).code) := by
  rw [mergeViews_column, Option.some_inj] at hm
  rw [hfront, ← storedClass_eq]
  refine ⟨fun hrear => ?_, fun hrear => ⟨fun hnone => ?_, fun c' hc' => ?_⟩⟩
  · simp [← hm, mergedClass, hrear]
  · simp [← hm, mergedClass, hrear, pairedRear_of_no_column hnone]
  · simp [← hm, mergedClass, hrear, pairedRear_of_column hc', moreSevere_code, storedClass_eq]

/-! ### The end write -/

theorem lineHanded_eq (x : Lane) : x.lineHanded = handed x := rfl

section
variable {s : State} {l : LaneId} {a : Assembly} {e : FifoEntry} {rest : List FifoEntry} (n : Nat) (hs : s.Settled)
  (hfifo : s.ptu.fifo = e :: rest) (hstall : s.ptu.stall = none) (hat : entryAt e l a.slot 4095) (hbe : e.be = 0xF)
  (hmode : (s.lane l).mode = .run ∨ (s.lane l).mode = .drain) (hopen : (s.lane l).assembly = some a)
include hs hfifo hstall hat hbe hmode hopen

/-- A full end write into the open slot finishes the line (R10). -/
theorem exec_endWrite :
    exec (.entryLeavesFifo n) s = .next (((headGone s n rest).finishLine l a e.data).endIntake l (s.lane l)) := by
  have hlane := headGone_lane s n rest l
  have hl := ringLane_of_entryAt hat (by decide)
  have hkind := kind_of_entryAt_end hat
  rw [if_pos hbe] at hkind
  rw [exec_entryLeavesFifo n hs hfifo hstall, hl, judgeEntry_of_sorting hl (by rw [hlane]; exact hmode)]
  simp only [State.judgeSorting, hkind, State.endWord, hlane, hopen, slotOf_of_entryAt hat (by decide), if_true]

end

/-- Settles O33: the swap of the first skipped line comes before its own handing, and the data line's work follows it. -/
theorem completeLineHandedAsData : Obligations.CompleteLineHandedAsData := by
  refine ⟨?_, fun a offset => ⟨mergeViews_length a offset, mergedClass_code a offset⟩⟩
  intro s base after l a e rest skipped v w hs hslot hfifo hstall hat hbe hmode hopen hskipped hdata hseen hloss hbase hv hw
  have hlane := headGone_lane s after rest l
  have hverdict : a.verdict e.data = none := by
    rw [verdict_eq, if_neg (not_not.2 hdata), if_neg (Nat.not_lt.2 hseen), if_neg (by simp [hloss])]
  have hcount : (lineDiff a.line (s.lane l).expected).toNat = skipped := by
    rw [lineDiff, hskipped, Int.toNat_natCast]
  obtain ⟨b, hb⟩ : ∃ b, b = s.modLane l Lane.discardAssembly := ⟨_, rfl⟩
  have hdiscard : (headGone s after rest).modLane l Lane.discardAssembly = headGone b after rest := by
    rw [hb, headGone_modLane]
  replace hbase : base = if skipped = 0 then b else b.swapLane l := by rw [hb]; exact hbase
  have hskips : (headGone b after rest).handSkipped l skipped = (headGone base after rest).apply l v := by
    rw [hv, hbase]
    by_cases hzero : skipped = 0
    · subst hzero
      rw [if_pos rfl, State.handSkipped, skippedHanded, ← headGone_lane b after rest l, apply_unchanged]
    · rw [if_neg hzero, handSkipped_swapped _ _ hzero, headGone_swapLane, headGone_lane]
  have hfinish : (headGone s after rest).finishLine l a e.data =
      (headGone base after rest).apply l ({ w.1 with expected := a.line + 1 }, v.2 ++ w.2) := by
    unfold State.finishLine
    dsimp only
    rw [hlane, hverdict, hcount, hdiscard]
    dsimp only
    rw [hskips, State.handData, apply_lane_self, apply_apply, State.setExpected, modLane_apply, lineHanded_eq, ← hw]
  have hhanded := handed_finishLine (headGone s after rest) l a e.data
  rw [hfinish, apply_lane_self, hlane, hcount] at hhanded
  have hworkb : s.Worked {l} b := hb ▸ worked_modLane (Set.mem_singleton l) (Lane.kept_discardAssembly _)
  have hpathb : s.SamePath b := hb ▸ samePath_modLane _ _ _
  obtain ⟨hwork, hpath⟩ : s.Worked {l} base ∧ s.SamePath base := by
    rw [hbase]
    split
    · exact ⟨hworkb, hpathb⟩
    · exact ⟨hworkb.trans (worked_swapLane _ (Set.mem_singleton l)), hpathb.trans (samePath_swapLane _ _)⟩
  have hfew := lineDiff_lt a.line (s.lane l).expected
  rw [exec_endWrite after hs hfifo hstall hat hbe hmode hopen, hfinish,
    endIntake_apply (hwork.slot.trans hslot) hpath.now hpath.events hpath.ptu hhanded (by omega) (by omega)]

/-! ### Records join the queue at its tail -/

theorem prefix_enqueue (w : Rwu) (r : Record) : w.queue <+: (w.enqueue r).queue := by
  obtain ⟨-, he⟩ | ⟨-, he⟩ := enqueue_cases w r
  · rw [he]
    exact List.prefix_append _ _
  · rw [he]

theorem prefix_foldl_enqueue (rs : List Record) (w : Rwu) : w.queue <+: (rs.foldl Rwu.enqueue w).queue := by
  induction rs generalizing w with
  | nil => exact List.prefix_refl _
  | cons r rs ih => exact (prefix_enqueue w r).trans (ih _)

theorem prefix_completeCommand (s : State) (c : CommandStatus) (d : Word) : s.rwu.queue <+: (s.completeCommand c d).rwu.queue := by
  unfold State.completeCommand
  split
  · exact prefix_enqueue _ _
  · exact List.prefix_refl _

theorem prefix_swapLane (s : State) (l : LaneId) : s.rwu.queue <+: (s.swapLane l).rwu.queue := by
  cases hw : s.swapWaiting l with
  | false => rw [swapLane_of_not_waiting hw]
  | true =>
    obtain ⟨mask, swapped, hcommit⟩ := swapping_of_swapWaiting hw
    rw [swapLane_of_waiting hcommit hw]
    split
    · have hrwu := modLane_rwu s l fun x => x.takeTable s.rtu.staged l
      have hcomplete := prefix_completeCommand
        { (s.modLane l fun x => x.takeTable s.rtu.staged l) with
          rtu := { (s.modLane l fun x => x.takeTable s.rtu.staged l).rtu with commit := .idle } } .ok (mask.setWidth 32)
      rw [← hrwu]
      exact hcomplete
    · rw [← modLane_rwu s l fun x => x.takeTable s.rtu.staged l]

theorem prefix_linesFinished (s base : State) (after : Nat) (l : LaneId) (n : Nat) (y : Lane) (recs : List Record)
    (rest : List FifoEntry) : base.rwu.queue <+: (linesFinished s base after l n y recs rest).rwu.queue := by
  have hqueue : (linesFinished s base after l n y recs rest).rwu.queue = (recs.foldl Rwu.enqueue base.rwu).queue := by
    unfold linesFinished
    dsimp only
    split
    · exact setReport_queue _ _ _
    · rfl
  rw [hqueue]
  exact prefix_foldl_enqueue _ _

theorem linesFinished_lane (s base : State) (after : Nat) (l : LaneId) (n : Nat) (y : Lane) (recs : List Record)
    (rest : List FifoEntry) :
    (linesFinished s base after l n y recs rest).lane l = { y with drainDue := if y.mode = .drain then y.drained else y.drainDue } := by
  cases l <;> rfl

/-! ### What a void line counts -/

/-- A void line is processed and void once, closes every object, and leaves the assembly (R12, R54). -/
structure Lane.Voided (n k : Nat) (x y : Lane) : Prop where
  processed : y.counters.linesProcessed = x.counters.linesProcessed + BitVec.ofNat 32 n
  void : y.counters.linesVoid = x.counters.linesVoid + BitVec.ofNat 32 n
  skipped : y.counters.linesSkipped = x.counters.linesSkipped + BitVec.ofNat 32 k
  damaged : y.counters.linesDamaged = x.counters.linesDamaged
  assembly : y.assembly = x.assembly
  expected : y.expected = x.expected
  objects : 0 < n → y.objects = []

theorem Lane.Voided.trans {m n j k : Nat} {x y z : Lane} (h : x.Voided m j y) (hlater : y.Voided n k z) (hn : 0 < n) :
    x.Voided (m + n) (j + k) z where
  processed := by rw [hlater.processed, h.processed, BitVec.ofNat_add, BitVec.add_assoc]
  void := by rw [hlater.void, h.void, BitVec.ofNat_add, BitVec.add_assoc]
  skipped := by rw [hlater.skipped, h.skipped, BitVec.ofNat_add, BitVec.add_assoc]
  damaged := hlater.damaged.trans h.damaged
  assembly := hlater.assembly.trans h.assembly
  expected := hlater.expected.trans h.expected
  objects _ := hlater.objects hn

theorem voided_voidHanded (l : LaneId) (skipped : Bool) (x : Lane) :
    x.Voided 1 (if skipped then 1 else 0) (voidHanded l skipped x).1 := by
  have hgraded := graded_voidLine (x.lineHanded.count fun c => c.voidLine skipped) l
  rw [voidHanded_eq] at hgraded
  have hcounts := hgraded.counts
  unfold Counters.SameButGraded at hcounts
  refine ⟨by rw [hcounts]; rfl, by rw [hcounts]; rfl, ?_, by rw [hcounts]; rfl, by rw [hgraded.same]; rfl, by rw [hgraded.same]; rfl, ?_⟩
  · rw [hcounts]
    cases skipped
    · exact (BitVec.add_zero _).symm
    · rfl
  · intro _
    rw [hgraded.same]

theorem voided_skippedHanded (l : LaneId) (n : Nat) (x : Lane) : x.Voided n n (skippedHanded l n x).1 := by
  induction n generalizing x with
  | zero => exact ⟨(BitVec.add_zero _).symm, (BitVec.add_zero _).symm, (BitVec.add_zero _).symm, rfl, rfl, rfl, nofun⟩
  | succ n ih =>
    rcases Nat.eq_zero_or_pos n with rfl | hn
    · exact voided_voidHanded l true x
    · have hall := (voided_voidHanded l true x).trans (ih (voidHanded l true x).1) hn
      rw [if_pos rfl, Nat.add_comm 1 n] at hall
      exact hall

/-- The skipped lines and the finished one, void: each is processed and void once. -/
theorem voided_skipped_then_void (l : LaneId) (n : Nat) (x : Lane) :
    x.Voided (n + 1) n (voidHanded l false (skippedHanded l n x).1).1 :=
  (voided_skippedHanded l n x).trans (voided_voidHanded l false _) (by omega)

/-- Settles O34: the damage is recorded before the swap, and the lines E..n follow it. -/
theorem damagedLineHandedAsVoid : Obligations.DamagedLineHandedAsVoid := by
  intro s after l a e rest skipped reason hs hslot hfifo hstall hat hbe hmode hopen hskipped hreason
  have hlane := headGone_lane s after rest l
  have hverdict : a.verdict e.data = some reason := by
    rw [verdict_eq]
    obtain ⟨hdata, rfl⟩ | ⟨hdata, hseen, rfl⟩ | ⟨hdata, hseen, hloss, rfl⟩ := hreason
    · rw [if_pos hdata]
    · rw [if_neg (not_not.2 hdata), if_pos hseen]
    · rw [if_neg (not_not.2 hdata), if_neg (Nat.not_lt.2 hseen), if_pos hloss]
  have hcount : (lineDiff a.line (s.lane l).expected).toNat = skipped := by
    rw [lineDiff, hskipped, Int.toNat_natCast]
  have hfew := lineDiff_lt a.line (s.lane l).expected
  have hevent (base : State) (v w : Lane × List Record) (hbase : base = (s.damageLine l a reason).swapLane l)
      (hv : v = skippedHanded l skipped (base.lane l)) (hw : w = voidHanded l false v.1) :
      exec (.entryLeavesFifo after) s = .next
        (linesFinished s base after l (skipped + 1) { w.1 with expected := a.line + 1 } (v.2 ++ w.2) rest) := by
    have hfinish : (headGone s after rest).finishLine l a e.data =
        (headGone base after rest).apply l ({ w.1 with expected := a.line + 1 }, v.2 ++ w.2) := by
      unfold State.finishLine
      dsimp only
      rw [hlane, hverdict, hcount]
      dsimp only
      rw [← headGone_damageLine, handSkipped_handVoid, headGone_swapLane, ← hbase, headGone_lane, State.setExpected, modLane_apply,
        hw, hv]
    have hhanded := handed_finishLine (headGone s after rest) l a e.data
    rw [hfinish, apply_lane_self, hlane, hcount] at hhanded
    have hwork : s.Worked {l} base := hbase ▸ (worked_damageLine s (Set.mem_singleton l) _ _).trans (worked_swapLane _ (Set.mem_singleton l))
    have hpath : s.SamePath base := hbase ▸ (samePath_damageLine s l a reason).trans (samePath_swapLane _ _)
    rw [exec_endWrite after hs hfifo hstall hat hbe hmode hopen, hfinish,
      endIntake_apply (hwork.slot.trans hslot) hpath.now hpath.events hpath.ptu hhanded (by omega) (by omega)]
  clear hfew
  refine ⟨fun base v w hbase hv hw => hevent base v w hbase hv hw, fun hroom => ?_⟩
  obtain ⟨base, hbase⟩ : ∃ base, base = (s.damageLine l a reason).swapLane l := ⟨_, rfl⟩
  obtain ⟨y, hy⟩ : ∃ y, y = (voidHanded l false (skippedHanded l skipped (base.lane l)).1).1 := ⟨_, rfl⟩
  have hvoided : (base.lane l).Voided (skipped + 1) skipped y := hy ▸ voided_skipped_then_void l skipped _
  have hdamaged : (s.damageLine l a reason).lane l = (s.lane l).damaged := damageLine_lane s l a reason
  have hswap : (base.lane l).assembly = none ∧ (base.lane l).counters = (s.lane l).damaged.counters := by
    rw [hbase, swapLane_lane, hdamaged]
    split
    · exact ⟨rfl, rfl⟩
    · exact ⟨rfl, rfl⟩
  obtain ⟨hnone, hcounters⟩ := hswap
  have hfirst : (s.damageLine l a reason).rwu.queue =
      s.rwu.queue ++ [⟨.lineFault l reason a.slot a.header a.line a.seen, s.rwu.dropCount⟩] := by
    have hrecord : (s.damageLine l a reason).rwu = s.rwu.enqueue (.lineFault l reason a.slot a.header a.line a.seen) := by
      rw [← modLane_rwu s l Lane.damaged]
      rfl
    rw [hrecord, (enqueue_of_room hroom _).1]
  have hswapped : (s.damageLine l a reason).rwu.queue <+: base.rwu.queue := by
    rw [hbase]
    exact prefix_swapLane _ l
  have hexec := hevent base _ _ hbase rfl rfl
  rw [← hy] at hexec
  obtain ⟨t, ht⟩ : ∃ t, t = linesFinished s base after l (skipped + 1) { y with expected := a.line + 1 }
    ((skippedHanded l skipped (base.lane l)).2 ++ (voidHanded l false (skippedHanded l skipped (base.lane l)).1).2) rest := ⟨_, rfl⟩
  rw [← ht] at hexec
  have hqueue : (s.damageLine l a reason).rwu.queue <+: t.rwu.queue := hswapped.trans (ht ▸ prefix_linesFinished _ _ _ _ _ _ _ _)
  have hleft : t.lane l = { y with expected := a.line + 1, drainDue := (t.lane l).drainDue } := by
    rw [ht, linesFinished_lane]
  obtain ⟨more, hmore⟩ := hqueue
  rw [hfirst, List.append_assoc] at hmore
  refine ⟨t, more, hexec, by rw [hleft], by rw [hleft, ← hnone, ← hvoided.assembly], by rw [hleft]; exact hvoided.objects (by omega),
    ?_, ?_, ?_, ?_, hmore.symm⟩
  · rw [hleft, hvoided.processed, hcounters]
    rfl
  · rw [hleft, hvoided.void, hcounters]
    rfl
  · rw [hleft, hvoided.skipped, hcounters]
    rfl
  · rw [hleft, hvoided.damaged, hcounters]
    rfl

end Sys2Proof.Machine

/-! ## Proofs: what a line start expires (O37)

One expiry is the damage of a line open at E, the swap that waits, the void line and E past it. Only the first can find a swap, so
the rest is one application of `expiredLines`; their number follows from `lineDiff_add`. -/
namespace Sys2Proof.Machine

/-! ### Distances -/

/-- E moved on by as many lines comes nearer to LN by as many, as long as it does not pass LN by more than one. -/
theorem lineDiff_add {a b : LineNo} {n : Nat} (h : (n : Int) ≤ lineDiff a b + 1) :
    lineDiff a (b + BitVec.ofNat 32 n) = lineDiff a b - n := by
  have ha := a.isLt
  have hb := b.isLt
  have hd := (a - b).isLt
  unfold lineDiff at *
  have hsub : a - (b + BitVec.ofNat 32 n) = a - b - BitVec.ofNat 32 n := by ring
  rw [hsub]
  clear hsub ha hb
  generalize a - b = d at *
  rw [BitVec.toInt_eq_toNat_cond] at h
  rw [BitVec.toInt_eq_toNat_cond, BitVec.toInt_eq_toNat_cond, BitVec.toNat_sub, BitVec.toNat_ofNat]
  split at h <;> split <;> omega

theorem lineDiff_succ {a b : LineNo} (h : 0 ≤ lineDiff a b) : lineDiff a (b + 1) = lineDiff a b - 1 :=
  lineDiff_add (n := 1) (by omega)

/-! ### One line expires -/

/-- A line that expires: its damage, the swap that waits, the void line, E past it (R13, R134). -/
def State.expireOne (s : State) (l : LaneId) : State :=
  (((s.apply l (lateEnd l (s.lane l))).handVoid l false).setExpected l ((s.lane l).expected + 1))

theorem expire_zero (s : State) (l : LaneId) : s.expire l 0 = s := rfl

theorem expire_succ_of_due {s : State} {l : LaneId} (h : ((s.lane l).block.dataWait : Int) ≤ lineDiff (s.lane l).clock.ln (s.lane l).expected)
    (fuel : Nat) : s.expire l (fuel + 1) = (s.expireOne l).expire l fuel := by
  rw [State.expire]
  dsimp only
  rw [if_pos h, State.expireOne, lateEnd]
  cases (s.lane l).assembly with
  | none => rw [apply_unchanged]
  | some a =>
    dsimp only
    split
    · rfl
    · rw [apply_unchanged]

theorem expire_succ_of_near {s : State} {l : LaneId} (h : lineDiff (s.lane l).clock.ln (s.lane l).expected < (s.lane l).block.dataWait)
    (fuel : Nat) : s.expire l (fuel + 1) = s := by
  rw [State.expire]
  dsimp only
  rw [if_neg (by omega)]

theorem expireOne_eq_apply (s : State) (l : LaneId) (base : State) (hbase : base = (s.apply l (lateEnd l (s.lane l))).swapLane l) :
    s.expireOne l = base.apply l
      ({ (voidHanded l false (base.lane l)).1 with expected := (s.lane l).expected + 1 }, (voidHanded l false (base.lane l)).2) := by
  rw [State.expireOne, handVoid_eq_apply, ← hbase, State.setExpected, modLane_apply]

/-! ### The lines that expire together -/

/-- What the lines expired leave of a lane. -/
structure Lane.Expired (n : Nat) (x y : Lane) : Prop where
  expected : y.expected = x.expected + BitVec.ofNat 32 n
  processed : y.counters.linesProcessed = x.counters.linesProcessed + BitVec.ofNat 32 n
  void : y.counters.linesVoid = x.counters.linesVoid + BitVec.ofNat 32 n
  skipped : y.counters.linesSkipped = x.counters.linesSkipped
  clock : y.clock = x.clock
  table : y.table = x.table
  mode : y.mode = x.mode
  objects : 0 < n → y.objects = []

theorem lateEnd_same (l : LaneId) (x : Lane) : (lateEnd l x).1 =
    { x with assembly := (lateEnd l x).1.assembly, counters := { x.counters with linesDamaged := (lateEnd l x).1.counters.linesDamaged } } := by
  unfold lateEnd
  split
  · split <;> rfl
  · rfl

theorem lateEnd_of_not_open {l : LaneId} {x : Lane} (h : ∀ a, x.assembly = some a → a.line ≠ x.expected) : lateEnd l x = (x, []) := by
  unfold lateEnd
  split
  · rename_i a ha
    rw [if_neg (h a ha)]
  · rfl

theorem lateEnd_leaves (l : LaneId) (x : Lane) (a : Assembly) (h : (lateEnd l x).1.assembly = some a) : a.line ≠ x.expected := by
  unfold lateEnd at h
  split at h
  · rename_i b hb
    split at h
    · cases h
    · rename_i hne
      obtain rfl : b = a := Option.some_inj.1 (hb ▸ h)
      exact hne
  · rename_i hnone
    exact absurd (hnone ▸ h) nofun

theorem voidHanded_same (l : LaneId) (skipped : Bool) (x : Lane) :
    (voidHanded l skipped x).1.clock = x.clock ∧ (voidHanded l skipped x).1.table = x.table ∧ (voidHanded l skipped x).1.mode = x.mode := by
  have hgraded := graded_voidLine (x.lineHanded.count fun c => c.voidLine skipped) l
  rw [voidHanded_eq] at hgraded
  rw [hgraded.same]
  exact ⟨rfl, rfl, rfl⟩

theorem expired_expiredLines (l : LaneId) (n : Nat) (x : Lane) : x.Expired n (expiredLines l n x).1 := by
  induction n generalizing x with
  | zero =>
    exact ⟨(BitVec.add_zero _).symm, (BitVec.add_zero _).symm, (BitVec.add_zero _).symm, rfl, rfl, rfl, rfl, nofun⟩
  | succ n ih =>
    obtain ⟨y, hy⟩ : ∃ y, y = (lateEnd l x).1 := ⟨_, rfl⟩
    have hlate := hy ▸ lateEnd_same l x
    have hvoid := voided_voidHanded l false y
    obtain ⟨hclock, htable, hmode⟩ := voidHanded_same l false y
    have hlater := ih { (voidHanded l false y).1 with expected := x.expected + 1 }
    have hdef : (expiredLines l (n + 1) x).1 = (expiredLines l n { (voidHanded l false y).1 with expected := x.expected + 1 }).1 := by
      rw [hy]
      rfl
    rw [hdef]
    refine ⟨?_, ?_, ?_, ?_, ?_, ?_, ?_, fun _ => ?_⟩
    · rw [hlater.expected, Nat.add_comm n 1, BitVec.ofNat_add, ← BitVec.add_assoc]
      rfl
    · rw [hlater.processed, Nat.add_comm n 1, BitVec.ofNat_add, ← BitVec.add_assoc]
      show (voidHanded l false y).1.counters.linesProcessed + _ = _
      rw [hvoid.processed, hlate]
    · rw [hlater.void, Nat.add_comm n 1, BitVec.ofNat_add, ← BitVec.add_assoc]
      show (voidHanded l false y).1.counters.linesVoid + _ = _
      rw [hvoid.void, hlate]
    · rw [hlater.skipped]
      show (voidHanded l false y).1.counters.linesSkipped = _
      rw [hvoid.skipped, hlate]
      exact BitVec.add_zero _
    · rw [hlater.clock, ← show y.clock = x.clock by rw [hlate]]
      exact hclock
    · rw [hlater.table, ← show y.table = x.table by rw [hlate]]
      exact htable
    · rw [hlater.mode, ← show y.mode = x.mode by rw [hlate]]
      exact hmode
    · cases n with
      | zero => exact hvoid.objects (by omega)
      | succ n => exact hlater.objects (by omega)

/-- Once the swap has been taken, the lines that bring E near enough to LN expire as one application of their work. -/
theorem expire_eq_apply {s : State} {l : LaneId} (hw : s.swapWaiting l = false) (fuel n : Nat)
    (hn : n = (lineDiff (s.lane l).clock.ln (s.lane l).expected - (s.lane l).block.dataWait + 1).toNat) (hfuel : n ≤ fuel) :
    s.expire l fuel = s.apply l (expiredLines l n (s.lane l)) := by
  induction n generalizing s fuel with
  | zero =>
    rw [expiredLines, apply_unchanged]
    cases fuel with
    | zero => rfl
    | succ fuel => exact expire_succ_of_near (by omega) fuel
  | succ n ih =>
    obtain ⟨fuel, rfl⟩ : ∃ k, fuel = k + 1 := ⟨fuel - 1, by omega⟩
    obtain ⟨base, hbase⟩ : ∃ base, base = (s.apply l (lateEnd l (s.lane l))).swapLane l := ⟨_, rfl⟩
    have hstays : base = s.apply l (lateEnd l (s.lane l)) := by
      rw [hbase, swapLane_of_not_waiting (by rw [swapWaiting_congr (apply_rtu _ _ _), hw])]
    have hone := expireOne_eq_apply s l base hbase
    rw [hstays, apply_lane_self, apply_apply] at hone
    have hexpired := expired_expiredLines l 1 (s.lane l)
    have hlane : (s.expireOne l).lane l = (expiredLines l 1 (s.lane l)).1 := by rw [hone, apply_lane_self]; rfl
    have hwait : (s.expireOne l).swapWaiting l = false := by rw [hone, swapWaiting_congr (apply_rtu _ _ _), hw]
    have hblock : ((s.expireOne l).lane l).block = (s.lane l).block := by
      rw [hlane, Lane.block, Lane.block, Lane.activeTable, Lane.activeTable, hexpired.table]
    have hnext : n = (lineDiff ((s.expireOne l).lane l).clock.ln ((s.expireOne l).lane l).expected -
        ((s.expireOne l).lane l).block.dataWait + 1).toNat := by
      rw [hblock, hlane, hexpired.clock, hexpired.expected, lineDiff_add (by omega)]
      omega
    rw [expire_succ_of_due (by omega), ih hwait fuel hnext (by omega), hone, apply_lane_self, apply_apply]
    rfl

/-- A line start in RUN and DRAIN with line E due: E is damaged, the swap taken, and the lines that bring E near enough expire. -/
theorem expire_eq_base {s : State} {l : LaneId} {late : Lane × List Record} {base : State} {n fuel : Nat}
    (hdue : ((s.lane l).block.dataWait : Int) ≤ lineDiff (s.lane l).clock.ln (s.lane l).expected)
    (hlate : late = lateEnd l (s.lane l)) (hbase : base = (s.apply l late).swapLane l)
    (hn : n = max 1 (lineDiff (s.lane l).clock.ln (s.lane l).expected - (base.lane l).block.dataWait + 1).toNat)
    (hfuel : fuel = (s.lane l).linesBehind) :
    (base.lane l).clock = (s.lane l).clock ∧ (base.lane l).expected = (s.lane l).expected ∧ (base.lane l).mode = (s.lane l).mode ∧
      (∃ k, (base.lane l).counters = { (s.lane l).counters with linesDamaged := k }) ∧
      s.expire l fuel = base.apply l (expiredLines l n (base.lane l)) := by
  have hsame := lateEnd_same l (s.lane l)
  rw [← hlate] at hsame
  have hlane : base.lane l = late.1 ∨ base.lane l = late.1.takeTable s.rtu.staged l := by
    rw [hbase, swapLane_lane, apply_lane_self, apply_rtu]
    split
    · exact .inr rfl
    · exact .inl rfl
  have hkeeps : (base.lane l).clock = (s.lane l).clock ∧ (base.lane l).expected = (s.lane l).expected ∧
      (base.lane l).mode = (s.lane l).mode ∧ ∃ k, (base.lane l).counters = { (s.lane l).counters with linesDamaged := k } := by
    obtain h | h := hlane
    · rw [h, hsame]
      exact ⟨rfl, rfl, rfl, _, rfl⟩
    · rw [h, hsame]
      exact ⟨rfl, rfl, rfl, _, rfl⟩
  obtain ⟨hclock, hexpected, hmode, hcounters⟩ := hkeeps
  refine ⟨hclock, hexpected, hmode, hcounters, ?_⟩
  have hnone : lateEnd l (base.lane l) = (base.lane l, []) := by
    have hleaves := lateEnd_leaves l (s.lane l)
    rw [← hlate] at hleaves
    refine lateEnd_of_not_open fun a ha => ?_
    rw [hexpected]
    obtain h | h := hlane
    · exact hleaves a (h ▸ ha)
    · rw [h, Lane.takeTable] at ha
      obtain ⟨b, hb, rfl⟩ := Option.map_eq_some_iff.1 ha
      exact hleaves b hb
  obtain ⟨m, rfl⟩ : ∃ m, n = m + 1 := ⟨n - 1, by omega⟩
  have hone := expireOne_eq_apply s l base (hlate ▸ hbase)
  have hexpired := expired_expiredLines l 1 (base.lane l)
  have hfirst : ({ (voidHanded l false (base.lane l)).1 with expected := (s.lane l).expected + 1 },
      (voidHanded l false (base.lane l)).2) = expiredLines l 1 (base.lane l) := by
    simp only [expiredLines, hnone, hexpected, List.append_nil, List.nil_append]
  rw [hfirst] at hone
  have hafter : (s.expireOne l).lane l = (expiredLines l 1 (base.lane l)).1 := by rw [hone, apply_lane_self]
  have hblock : ((s.expireOne l).lane l).block = (base.lane l).block := by
    rw [hafter, Lane.block, Lane.block, Lane.activeTable, Lane.activeTable, hexpired.table]
  have hdistance : lineDiff ((s.expireOne l).lane l).clock.ln ((s.expireOne l).lane l).expected =
      lineDiff (s.lane l).clock.ln (s.lane l).expected - 1 := by
    rw [hafter, hexpired.clock, hexpired.expected, hclock, hexpected, lineDiff_add (by omega)]
    rfl
  have hwait : (s.expireOne l).swapWaiting l = false := by
    rw [hone, swapWaiting_congr (apply_rtu _ _ _), hbase, swapWaiting_swapLane]
  rw [hfuel, Lane.linesBehind, expire_succ_of_due hdue,
    expire_eq_apply hwait _ m (by rw [hblock, hdistance]; omega) (by omega), hone, apply_lane_self, apply_apply]
  simp only [expiredLines, hnone, List.append_nil, List.nil_append]

/-- In HOLD E alone moves, as far as needed (R16). -/
theorem trackExpected_eq {x : Lane} (fuel n : Nat) (hn : n = (lineDiff x.clock.ln x.expected - x.block.dataWait + 1).toNat)
    (hfuel : n ≤ fuel) : x.trackExpected fuel = { x with expected := x.expected + BitVec.ofNat 32 n } := by
  induction n generalizing x fuel with
  | zero =>
    have hzero : ({ x with expected := x.expected + BitVec.ofNat 32 0 } : Lane) = x := by rw [BitVec.add_zero]
    rw [hzero]
    cases fuel with
    | zero => rfl
    | succ fuel =>
      rw [Lane.trackExpected, if_neg (by omega)]
  | succ n ih =>
    obtain ⟨fuel, rfl⟩ : ∃ k, fuel = k + 1 := ⟨fuel - 1, by omega⟩
    have hnear : lineDiff x.clock.ln (x.expected + 1) = lineDiff x.clock.ln x.expected - 1 := lineDiff_succ (by omega)
    have hblock : ({ x with expected := x.expected + 1 } : Lane).block = x.block := rfl
    rw [Lane.trackExpected, if_pos (by omega), ih fuel (by rw [hblock]; dsimp only; omega) (by omega)]
    rw [Nat.add_comm n 1, BitVec.ofNat_add, ← BitVec.add_assoc]
    rfl

theorem intakeLineStart_sorting {s : State} {l : LaneId} (h : (s.lane l).mode = .run ∨ (s.lane l).mode = .drain) :
    s.intakeLineStart l = s.expire l (s.lane l).linesBehind := by
  obtain h | h := h <;> simp only [State.intakeLineStart, h]

theorem intakeLineStart_hold {s : State} {l : LaneId} (h : (s.lane l).mode = .hold) :
    s.intakeLineStart l = s.setLane l
      { s.lane l with
        expected := (s.lane l).expected +
          BitVec.ofNat 32 (lineDiff (s.lane l).clock.ln (s.lane l).expected - (s.lane l).block.dataWait + 1).toNat } := by
  have htrack : s.intakeLineStart l = s.modLane l fun x => x.trackExpected (s.lane l).linesBehind := by
    simp only [State.intakeLineStart, h]
  have hfuel : (lineDiff (s.lane l).clock.ln (s.lane l).expected - (s.lane l).block.dataWait + 1).toNat ≤ (s.lane l).linesBehind := by
    unfold Lane.linesBehind
    omega
  rw [htrack, State.modLane, trackExpected_eq _ _ rfl hfuel]

theorem expire_of_near {s : State} {l : LaneId}
    (h : lineDiff (s.lane l).clock.ln (s.lane l).expected < (s.lane l).block.dataWait) : s.expire l (s.lane l).linesBehind = s := by
  rw [Lane.linesBehind, expire_succ_of_near h]

/-- Settles O37: the lines a line start expires, and how near E then is to LN. -/
theorem expiryKeepsLinesWithinWait : Obligations.ExpiryKeepsLinesWithinWait := by
  refine ⟨fun s l hmode => ?_, fun s l d hd hmode => ⟨fun hnear => ?_, fun late v base n hdue hlate hbase hn hv => ?_⟩,
    fun s l d hd => ⟨fun hhold => ?_, fun hidle => ?_⟩⟩
  · by_cases hhold : (s.lane l).mode = .hold
    · rw [intakeLineStart_hold hhold, lane_setLane_self]
      refine ⟨rfl, ?_⟩
      show lineDiff (s.lane l).clock.ln ((s.lane l).expected + _) < ((s.lane l).block.dataWait : Int)
      by_cases hnear : lineDiff (s.lane l).clock.ln (s.lane l).expected < (s.lane l).block.dataWait
      · rw [Int.toNat_of_nonpos (by omega), BitVec.add_zero]
        exact hnear
      · rw [lineDiff_add (by omega)]
        omega
    · have hsorting : (s.lane l).mode = .run ∨ (s.lane l).mode = .drain := by tauto
      rw [intakeLineStart_sorting hsorting]
      by_cases hnear : lineDiff (s.lane l).clock.ln (s.lane l).expected < (s.lane l).block.dataWait
      · rw [expire_of_near hnear]
        exact ⟨rfl, hnear⟩
      · obtain ⟨base, hbase⟩ : ∃ base, base = (s.apply l (lateEnd l (s.lane l))).swapLane l := ⟨_, rfl⟩
        obtain ⟨n, hn⟩ : ∃ n, n = max 1 (lineDiff (s.lane l).clock.ln (s.lane l).expected - (base.lane l).block.dataWait + 1).toNat :=
          ⟨_, rfl⟩
        obtain ⟨hclock, hexpected, -, -, hexpire⟩ := expire_eq_base (by omega) rfl hbase hn rfl
        have hexpired := expired_expiredLines l n (base.lane l)
        have hblock : (expiredLines l n (base.lane l)).1.block = (base.lane l).block := by
          rw [Lane.block, Lane.block, Lane.activeTable, Lane.activeTable, hexpired.table]
        rw [hexpire, apply_lane_self, hexpired.clock, hexpired.expected, hblock, hclock, hexpected]
        refine ⟨rfl, ?_⟩
        show lineDiff (s.lane l).clock.ln ((s.lane l).expected + _) < ((base.lane l).block.dataWait : Int)
        rw [lineDiff_add (by omega)]
        omega
  · rw [intakeLineStart_sorting hmode, expire_of_near (by rw [lineDiff, ← hd]; exact hnear)]
  · obtain rfl : d = lineDiff (s.lane l).clock.ln (s.lane l).expected := hd
    obtain ⟨hclock, hexpected, -, ⟨k, hcounters⟩, hexpire⟩ := expire_eq_base hdue hlate hbase (by omega) rfl
    have hexpired := expired_expiredLines l n (base.lane l)
    rw [intakeLineStart_sorting hmode, hexpire, hv]
    refine ⟨rfl, by rw [hexpired.expected, hexpected], ⟨?_, ?_, ?_⟩, hexpired.objects (by omega)⟩
    · rw [hexpired.void, hcounters]
    · rw [hexpired.skipped, hcounters]
    · rw [hexpired.processed, hcounters]
  · rw [intakeLineStart_hold hhold, hd]
    rfl
  · obtain h | h := hidle <;> simp only [State.intakeLineStart, h]

end Sys2Proof.Machine

/-! ## Proofs: what a tick does (O44, O46)

The model's tick is shown to be `tickOf`, the tick as the statements describe it: entry by entry (`entryDue_eq`), then for all that
come due (`tickOf_eq`). -/
namespace Sys2Proof.Machine

/-! ### An entry that comes due -/

theorem joinAtDue_eq (most : Nat) (w f : Firing) : joinAtDue most w f = joinedAtDue most w f := by
  unfold joinAtDue joinedAtDue joinedClose
  dsimp only [tickAdd, tickLt, tickDiff]
  by_cases hcut : (w.openTick + BitVec.ofNat 36 most - tickMax w.closeTick f.closeTick).toInt < 0
  · simp only [hcut, decide_true, if_true]
    rfl
  · simp only [hcut, decide_false, if_false, Bool.false_eq_true, bne_self_eq_false]
    rfl

/-- A valve written with its own contents. -/
theorem setValve_valve (x : Lane) (v : Fin 64) : x.setValve v (x.valve v) = x := by
  have hsame : x.valves.set v (x.valve v) = x.valves := by
    simp [Lane.valve]
  simp only [Lane.setValve, hsame]

theorem getD_pending {y : Valve} {g : Firing} (h : y.pending = some g) (f : Firing) : ({ y with pending := some (y.pending.getD f) } : Valve) = y := by
  rw [h, Option.getD_some, ← h]

/-- An entry at a resting or tested valve waits, or finds the slot occupied and is missed (R87). -/
theorem toPending_eq (x : Lane) (f : Firing) :
    x.toPending f =
      { x.setValve f.valve { x.valve f.valve with pending := some ((x.valve f.valve).pending.getD f) } with
        counters :=
          { x.counters with
            missedValveBusy := x.counters.missedValveBusy + if (x.valve f.valve).pending.isSome then 1 else 0 } } := by
  unfold Lane.toPending
  split
  · rename_i hnone
    simp [hnone, Lane.setValve]
  · rename_i g hsome
    rw [getD_pending hsome, setValve_valve]
    simp [hsome, Lane.countMissed, Counters.missed]

/-- The model's entry that comes due is the statements' one (R87, R96). -/
theorem entryDue_eq (now : Nat) (x : Lane) (f : Firing) : x.entryDue now f = dueTaken now x f := by
  unfold Lane.entryDue dueTaken
  dsimp only
  by_cases hsupply : x.supplyGood = true
  · rw [if_pos hsupply, if_neg (by simp [hsupply])]
    obtain ⟨y, hy⟩ : ∃ y, y = x.valve f.valve := ⟨_, rfl⟩
    rw [← hy]
    obtain ⟨phase, pending⟩ := y
    match phase with
    | .closed => simp [valveAfterDue, busyAtDue, Lane.openEntry, Lane.setValve, Lane.beginOpening, Lane.block]
    | .recover _ _ _ => simp [valveAfterDue, busyAtDue, toPending_eq, ← hy, Lane.setValve, Valve.firingOpen, Valve.opening]
    | .boost ⟨.test _, _, _, _, _, _⟩ =>
      simp [valveAfterDue, busyAtDue, toPending_eq, ← hy, Lane.setValve, Valve.firingOpen, Valve.opening]
    | .boost ⟨.firing w, _, _, _, _, _⟩ =>
      simp [valveAfterDue, busyAtDue, joinAtDue_eq, Lane.setValve, Valve.setFiring, Valve.firingOpen, Valve.opening]
    | .sustain ⟨.test _, _, _, _, _, _⟩ _ _ =>
      simp [valveAfterDue, busyAtDue, toPending_eq, ← hy, Lane.setValve, Valve.firingOpen, Valve.opening]
    | .sustain ⟨.firing w, _, _, _, _, _⟩ _ _ =>
      simp [valveAfterDue, busyAtDue, joinAtDue_eq, Lane.setValve, Valve.setFiring, Valve.firingOpen, Valve.opening]
  · rw [if_neg hsupply, if_pos (by simp [hsupply])]
    rfl

/-! ### A tick -/

theorem closesAt_iff {y : Valve} {t : TickTime} : y.closesAt t = true ↔ y.firingOpen.map Firing.closeTick = some t := by
  unfold Valve.closesAt
  split <;> simp_all

theorem pendingClosesAt_eq (y : Valve) (t : TickTime) : y.pendingClosesAt t = (y.pending.map Firing.closeTick == some t) := by
  unfold Valve.pendingClosesAt
  split <;> simp_all

theorem endTickAtClose_eq (x : Lane) (t : TickTime) :
    x.endTickAtClose t = if x.mode = .off ∨ x.mode = .fault then none else some (t + BitVec.ofNat 36 x.recTicks) := by
  unfold Lane.endTickAtClose
  cases hm : x.mode <;> simp [tickAdd]

theorem valveAtTick_eq (x : Lane) (now : Nat) (t : TickTime) (y : Valve) : x.valveAtTick now t y = closedAtTick x now t y := by
  have hended : (if y.closesAt t then x.toRecover now (x.endTickAtClose t) y else y) =
      { closedAtTick x now t y with pending := y.pending } := by
    by_cases hclose : y.firingOpen.map Firing.closeTick = some t
    · simp only [closesAt_iff.2 hclose, if_true, closedAtTick, hclose, Lane.toRecover, endTickAtClose_eq]
    · rw [if_neg (mt closesAt_iff.1 hclose), closedAtTick, if_neg hclose]
  unfold Lane.valveAtTick
  rw [hended]
  dsimp only
  rw [pendingClosesAt_eq]
  dsimp only
  by_cases hwait : y.pending.map Firing.closeTick = some t
  · simp [closedAtTick, hwait]
  · simp [closedAtTick, hwait]

/-- Without lines handed the evaluation looks at the quiet report alone (R101, R156). -/
theorem evaluated_tick {x y : Lane} (hmode : y.mode = x.mode) (hdue : y.drainDue = x.drainDue) :
    y.evaluated x.quiet 0 = { y with drainDue := drainFound x y } := by
  unfold Lane.evaluated drainFound
  rw [hmode]
  by_cases hfound : x.mode = .drain ∧ y.quiet ≠ x.quiet
  · rw [if_pos hfound, if_pos ⟨hfound.1, .inr hfound.2⟩]
  · rw [if_neg hfound, if_neg (by simpa using hfound), ← hdue, ← hmode]

theorem tickEnds_eq (x : Lane) (now : Nat) (t : TickTime) :
    x.tickEnds now t =
      { x with
        firings := x.firings.filter fun f => f.openTick != t, valves := x.valves.map (closedAtTick x now t)
        counters :=
          { x.counters with
            missedValveBusy := x.counters.missedValveBusy +
              BitVec.ofNat 32 (x.countValves fun y => y.pending.map Firing.closeTick == some t) } } := by
  have hvalve : x.valveAtTick now t = closedAtTick x now t := funext (valveAtTick_eq x now t)
  have hwait : Valve.pendingClosesAt t = fun y => y.pending.map Firing.closeTick == some t := funext fun y => pendingClosesAt_eq y t
  rw [Lane.tickEnds, mapValves_valves, hvalve, hwait]
  rfl

/-- The statements' tick is the model's: the ends, the entries that come due, the evaluation (R86, R101). -/
theorem tickOf_eq (now : Nat) (x : Lane) (k : Nat) :
    tickOf now x k =
      (({ x with clock := { x.clock with k := k } } : Lane).ejectorTick now (tickTime x.clock.ln k)).evaluated x.quiet 0 := by
  obtain ⟨z, hz⟩ : ∃ z, z = ({ x with clock := { x.clock with k := k } } : Lane) := ⟨_, rfl⟩
  have hdue : Lane.entryDue now = dueTaken now := funext fun x => funext fun f => entryDue_eq now x f
  have htame := z.tame_ejectorTick now (tickTime x.clock.ln k)
  have hmode : z.mode = x.mode := by rw [hz]
  have hfound : z.drainDue = x.drainDue := by rw [hz]
  rw [← hz, evaluated_tick (htame.mode.trans hmode) (htame.due.trans hfound), ejectorTick_eq, hdue, tickEnds_eq, hz]
  rfl

theorem takeTick_tickOf (s : State) (l : LaneId) (k : Nat) : (s.takeTick l k).lane l = tickOf s.now (s.lane l) k := by
  rw [takeTick_lane, tickOf_eq]

theorem takeTick_eq_setLane (s : State) (l : LaneId) (k : Nat) :
    s.takeTick l k = s.setLane l (tickOf s.now (s.lane l) k) := by
  have hsame : s.takeTick l k = s.setLane l ((s.takeTick l k).lane l) := by
    rw [takeTick_lane]
    cases l <;> rfl
  rw [hsame, takeTick_tickOf]

/-! ### All that come due at a tick -/

section
variable (now : Nat)

/-- With the supply good an entry that comes due writes its valve and two counts. -/
theorem dueTaken_of_good {x : Lane} (h : x.supplyGood = true) (f : Firing) :
    dueTaken now x f =
      { x with
        valves := x.valves.set f.valve (valveAfterDue x now f (x.valve f.valve))
        counters :=
          { x.counters with
            firingsOpened := x.counters.firingsOpened + if (x.valve f.valve).phase = .closed then 1 else 0
            missedValveBusy := x.counters.missedValveBusy + if busyAtDue (x.valve f.valve) then 1 else 0 } } := by
  rw [dueTaken, if_pos h]

theorem valve_dueTaken_of_good {x : Lane} (h : x.supplyGood = true) (f : Firing) (v : Fin 64) :
    (dueTaken now x f).valve v = if f.valve = v then valveAfterDue x now f (x.valve v) else x.valve v := by
  rw [dueTaken_of_good now h]
  by_cases hv : f.valve = v
  · subst hv
    rw [if_pos rfl]
    simp [Lane.valve]
  · rw [if_neg hv]
    simp only [Lane.valve, Fin.getElem_fin]
    exact Vector.getElem_set_ne _ _ fun h => hv (Fin.ext h)

theorem foldl_dueTaken_same (fs : List Firing) (x : Lane) :
    fs.foldl (dueTaken now) x =
      { x with
        valves := (fs.foldl (dueTaken now) x).valves, counters := (fs.foldl (dueTaken now) x).counters
        episodeMissed := (fs.foldl (dueTaken now) x).episodeMissed } := by
  have hdue : Lane.entryDue now = dueTaken now := funext fun x => funext fun f => entryDue_eq now x f
  rw [← hdue]
  exact foldl_entryDue_same now fs x

/-- With the supply good the entries of a valve that come due are taken by it one after another, and no others. -/
theorem valve_foldl_dueTaken {x : Lane} (h : x.supplyGood = true) (fs : List Firing) (v : Fin 64) :
    (fs.foldl (dueTaken now) x).valve v =
      (fs.filter fun f => f.valve == v).foldl (fun y f => valveAfterDue x now f y) (x.valve v) := by
  induction fs generalizing x with
  | nil => rfl
  | cons f fs ih =>
    have hgood : (dueTaken now x f).supplyGood = true := by rw [dueTaken_of_good now h]; exact h
    have hparams : (fun (y : Valve) (g : Firing) => valveAfterDue (dueTaken now x f) now g y) = fun y g => valveAfterDue x now g y := by
      rw [dueTaken_of_good now h]
      rfl
    rw [List.foldl_cons, ih hgood, hparams, valve_dueTaken_of_good now h, List.filter_cons]
    by_cases hv : f.valve = v
    · rw [if_pos hv, if_pos (by rw [hv, beq_self_eq_true]), List.foldl_cons]
    · rw [if_neg hv, if_neg (by rw [beq_iff_eq]; exact hv)]

theorem foldl_dueTaken_episode_of_good {x : Lane} (h : x.supplyGood = true) (fs : List Firing) :
    (fs.foldl (dueTaken now) x).episodeMissed = x.episodeMissed := by
  induction fs generalizing x with
  | nil => rfl
  | cons f fs ih => rw [List.foldl_cons, ih (by rw [dueTaken_of_good now h]; exact h), dueTaken_of_good now h]

/-- With the supply low the entries that come due are missed SUPPLY. -/
theorem foldl_dueTaken_of_low {x : Lane} (h : x.supplyGood = false) (fs : List Firing) :
    (fs.foldl (dueTaken now) x).valves = x.valves ∧
      (fs.foldl (dueTaken now) x).counters = { x.counters with missedSupply := x.counters.missedSupply + BitVec.ofNat 32 fs.length } ∧
      (fs.foldl (dueTaken now) x).episodeMissed =
        if fs = [] then x.episodeMissed else min (x.episodeMissed + fs.length) 65535 := by
  induction fs generalizing x with
  | nil => exact ⟨rfl, by simp, rfl⟩
  | cons f fs ih =>
    have hone : dueTaken now x f =
        { x with
          counters := { x.counters with missedSupply := x.counters.missedSupply + 1 }
          episodeMissed := min (x.episodeMissed + 1) 65535 } := by rw [dueTaken, if_neg (by simp [h])]
    obtain ⟨hvalves, hcounters, hepisode⟩ := ih (x := dueTaken now x f) (by rw [hone]; exact h)
    rw [List.foldl_cons, hvalves, hcounters, hepisode, hone]
    refine ⟨rfl, ?_, ?_⟩
    · rw [List.length_cons, Nat.add_comm fs.length 1, BitVec.ofNat_add, ← BitVec.add_assoc]
      rfl
    · rw [if_neg (List.cons_ne_nil f fs), List.length_cons]
      dsimp only
      split
      · rename_i hnil
        rw [hnil, List.length_nil]
      · omega

/-- Entries of different valves that come due with the supply good: each opens its valve if that is closed, or is missed BUSY. -/
theorem foldl_dueTaken_counters {x : Lane} (h : x.supplyGood = true) {fs : List Firing}
    (hdistinct : fs.Pairwise fun f g => f.valve ≠ g.valve) :
    (fs.foldl (dueTaken now) x).counters =
      { x.counters with
        firingsOpened := x.counters.firingsOpened + BitVec.ofNat 32 (fs.countP fun f => decide ((x.valve f.valve).phase = .closed))
        missedValveBusy := x.counters.missedValveBusy + BitVec.ofNat 32 (fs.countP fun f => busyAtDue (x.valve f.valve)) } := by
  induction fs generalizing x with
  | nil => simp
  | cons f fs ih =>
    obtain ⟨hfirst, hrest⟩ := List.pairwise_cons.1 hdistinct
    have hgood : (dueTaken now x f).supplyGood = true := by rw [dueTaken_of_good now h]; exact h
    have hvalve (g : Firing) (hg : g ∈ fs) : (dueTaken now x f).valve g.valve = x.valve g.valve := by
      rw [valve_dueTaken_of_good now h, if_neg (hfirst g hg)]
    have hclosed : (fs.countP fun g => decide (((dueTaken now x f).valve g.valve).phase = .closed)) =
        fs.countP fun g => decide ((x.valve g.valve).phase = .closed) :=
      List.countP_congr fun g hg => by rw [hvalve g hg]
    have hbusy : (fs.countP fun g => busyAtDue ((dueTaken now x f).valve g.valve)) = fs.countP fun g => busyAtDue (x.valve g.valve) :=
      List.countP_congr fun g hg => by rw [hvalve g hg]
    rw [List.foldl_cons, ih hgood hrest, hclosed, hbusy, dueTaken_of_good now h, List.countP_cons, List.countP_cons]
    have hadd (c : Word) (n : Nat) (b : Bool) : c + (if b = true then 1 else 0) + BitVec.ofNat 32 n =
        c + BitVec.ofNat 32 (n + if b = true then 1 else 0) := by
      cases b
      · simp
      · rw [if_pos rfl, if_pos rfl, Nat.add_comm n 1, BitVec.ofNat_add, ← BitVec.add_assoc]
        rfl
    have hphase : (if (x.valve f.valve).phase = .closed then (1 : Word) else 0) =
        if decide ((x.valve f.valve).phase = .closed) = true then 1 else 0 := by simp only [decide_eq_true_eq]
    simp only [hphase, hadd]

end

/-! ### The row TICK and edges that start no line -/

theorem exec_tick {s : State} (hs : s.Settled) (n : Nat) (l : LaneId) : exec (.tick n l) s = .next ((s.pass n).tickFalls l) := by
  show Host.Outcome.next ((s.begin n).tickFalls l) = _
  rw [begin_of_settled hs n]

theorem exec_triggerEdge {s : State} (hs : s.Settled) (n : Nat) (l : LaneId) :
    exec (.triggerEdge n l) s = .next ((s.pass n).edge l) := by
  show Host.Outcome.next ((s.begin n).edge l) = _
  rw [begin_of_settled hs n]

theorem tickFalls_of_not_due {s : State} {l : LaneId} (h : (s.lane l).clock.tickDue s.now = false) : s.tickFalls l = s := by
  unfold State.tickFalls
  dsimp only
  rw [if_neg (by simp [h])]

/-- Settles O44: edges in IDLE and glitches, ticks outside LOCKED and COASTING. -/
theorem ignoredEdgesAndTicks : Obligations.IgnoredEdgesAndTicks := by
  intro s n l hs
  refine ⟨fun hidle => ?_, fun hidle => ?_, fun hticking hglitch => ?_⟩
  · rw [exec_triggerEdge hs]
    simp only [State.edge, pass_lane, hidle]
  · rw [exec_tick hs, tickFalls_of_not_due]
    rw [pass_lane]
    obtain h | h := hidle <;> simp [Clock.tickDue, h, ClockState.ticking]
  · have hnear : (s.lane l).clock.isGlitch (s.pass n).now = true := by
      have hclocks : Config.glitchClocks = 2500 := rfl
      rw [Clock.isGlitch, decide_eq_true_eq, hclocks]
      show s.now + n - (s.lane l).clock.lineStart < 2500
      omega
    rw [exec_triggerEdge hs]
    obtain h | h := hticking
    · simp only [State.edge, pass_lane, h, hnear, if_true]
      rfl
    · simp only [State.edge, pass_lane, h, hnear, if_true]
      rfl

/-- Settles O46: a tick that is due is `tickOf`, taken apart valve by valve and count by count. -/
theorem tickTakesDueEntries : Obligations.TickTakesDueEntries := by
  refine ⟨fun s n l c t due hs hc hticking hk hdue ht hd => ?_, fun s n l hs hearly => ?_⟩
  · have hfalls : (s.pass n).tickFalls l = (s.pass n).setLane l (tickOf (s.now + n) (s.lane l) (c.k + 1)) := by
      have hreached : c.tickDue (s.pass n).now = true := by
        have hstate : c.state.ticking = true := by obtain h | h := hticking <;> rw [h] <;> rfl
        simp only [Clock.tickDue, hstate, hk, decide_true, Bool.and_true, Bool.true_and, decide_eq_true_eq]
        exact hdue
      unfold State.tickFalls
      dsimp only
      rw [pass_lane, hc, if_pos hreached, takeTick_eq_setLane, pass_lane]
      rfl
    obtain ⟨x, hx⟩ : ∃ x, x = s.lane l := ⟨_, rfl⟩
    obtain ⟨z, hz⟩ : ∃ z : Lane, z =
      { x with
        clock := { c with k := c.k + 1 }, firings := x.firings.filter fun f => f.openTick != t
        valves := x.valves.map (closedAtTick x (s.now + n) t)
        counters :=
          { x.counters with
            missedValveBusy := x.counters.missedValveBusy +
              BitVec.ofNat 32 (x.countValves fun y => y.pending.map Firing.closeTick == some t) } } := ⟨_, rfl⟩
    obtain ⟨w, hw⟩ : ∃ w, w = due.foldl (dueTaken (s.now + n)) z := ⟨_, rfl⟩
    have htick : tickOf (s.now + n) x (c.k + 1) = { w with drainDue := drainFound x w } := by
      rw [hw, hz, hd, ht, ← hx, ← hc, ← hx]
      rfl
    have hsame := foldl_dueTaken_same (s.now + n) due z
    rw [← hw] at hsame
    have hvalve (v : Fin 64) : z.valve v = closedAtTick x (s.now + n) t (x.valve v) := by
      rw [hz]
      simp [Lane.valve]
    have hsupply : z.supplyGood = x.supplyGood := by rw [hz]
    have hexec : exec (.tick n l) s = .next ((s.pass n).setLane l { w with drainDue := drainFound x w }) := by
      rw [exec_tick hs, hfalls, ← htick, hx]
    rw [← hx]
    refine ⟨_, hexec, ?_, ?_, ?_, ?_, ?_, ?_, ?_, ?_, ?_, ?_⟩
    · rw [lane_setLane_self]
      have hepisode : w.episodeMissed = if x.supplyGood = true ∨ due = [] then x.episodeMissed
          else min (x.episodeMissed + due.length) 65535 := by
        by_cases hgood : x.supplyGood = true
        · rw [if_pos (.inl hgood), hw, foldl_dueTaken_episode_of_good _ (hsupply.trans hgood), hz]
        · rw [hw, (foldl_dueTaken_of_low _ (hsupply.trans (Bool.eq_false_iff.2 hgood)) due).2.2]
          simp only [hgood, Bool.false_eq_true, false_or]
          rw [hz]
      rw [← hepisode]
      show ({ w with drainDue := drainFound x w } : Lane) = { x with
        clock := { c with k := c.k + 1 }, firings := x.firings.filter fun f => f.openTick != t
        valves := w.valves, counters := w.counters, drainDue := drainFound x w, episodeMissed := w.episodeMissed }
      generalize drainFound x w = found
      obtain ⟨vs, cs, k, hform⟩ : ∃ vs cs k, w = { z with valves := vs, counters := cs, episodeMissed := k } := ⟨_, _, _, hsame⟩
      rw [hform, hz]
    · rw [lane_setLane_self, htick]
    · rw [lane_setLane_ne _ _ (other_lane_ne l), pass_lane]
    · exact setLane_rwu _ _ _
    · exact setLane_cmu _ _ _
    · exact setLane_rtu _ _ _
    · exact setLane_ptu _ _ _
    · exact setLane_sram _ _ _
    · intro v y hy
      rw [lane_setLane_self]
      show (_ → w.valve v = y) ∧ (_ → w.valve v = y) ∧ ∀ f, _ → _ → w.valve v = _
      have hlow (h : x.supplyGood = false) : w.valve v = y := by
        rw [hy, ← hvalve, hw, Lane.valve, (foldl_dueTaken_of_low _ (hsupply.trans h) due).1]
        rfl
      refine ⟨fun hnone => ?_, hlow, fun f hf hgood => ?_⟩
      · by_cases hgood : x.supplyGood = true
        · rw [hy, ← hvalve, hw, valve_foldl_dueTaken _ (hsupply.trans hgood), List.filter_eq_nil_iff.2]
          · rfl
          · exact fun f hf => by rw [beq_iff_eq]; exact hnone f hf
        · exact hlow (Bool.eq_false_iff.2 hgood)
      · rw [hw, valve_foldl_dueTaken _ (hsupply.trans hgood), hf, List.foldl_cons, List.foldl_nil, hvalve, ← hy, hz, ← hc, ← hx]
        rfl
    · intro pendings hpendings
      rw [lane_setLane_self]
      show (_ → w.counters = _) ∧ (_ → _ → ∀ valveAt : Firing → Valve, _ → w.counters = _)
      refine ⟨fun hlow => ?_, fun hgood hdistinct valveAt hvalveAt => ?_⟩
      · rw [hw, (foldl_dueTaken_of_low _ (hsupply.trans hlow) due).2.1, hz, hpendings]
      · have hat : (fun f : Firing => z.valve f.valve) = valveAt := funext fun f => by rw [hvalve, hvalveAt]
        have hcounts := foldl_dueTaken_counters (s.now + n) (hsupply.trans hgood) hdistinct
        simp only [hvalve, ← hvalveAt] at hcounts
        rw [hw, hcounts, hz, hpendings]
        simp only [BitVec.ofNat_add, BitVec.add_assoc]
  · rw [exec_tick hs, tickFalls_of_not_due]
    rw [pass_lane, Clock.tickDue, Clock.tickTimeOf]
    obtain h | h := hearly
    · rw [decide_eq_false (Nat.not_lt.2 h), Bool.and_false, Bool.false_and]
    · rw [decide_eq_false (show ¬ _ ≤ (s.pass n).now from Nat.not_le.2 h), Bool.and_false]

end Sys2Proof.Machine

/-! ## Proofs: several ticks of a line, and the HOLD entry between them (O43, O45, O47, O48)

The statements describe the ticks of a lane alone. The model's part follows that description (`State.Ran`) until a tick finds the
drain condition of the lane to hold: the lane is then empty, later ticks only set k, and the part stands where the description
stands but for the mode, the assembly and the table a swap has brought (`State.HeldAt`). -/
namespace Sys2Proof.Machine

/-! ### What a tick leaves of its lane -/

theorem tickOf_same (now : Nat) (x : Lane) (k : Nat) :
    tickOf now x k =
      { x with
        clock := { x.clock with k := k }, firings := (tickOf now x k).firings, valves := (tickOf now x k).valves
        counters := (tickOf now x k).counters, drainDue := (tickOf now x k).drainDue
        episodeMissed := (tickOf now x k).episodeMissed } := by
  unfold tickOf
  dsimp only
  rw [foldl_dueTaken_same]

/-- In a quiet lane a tick only sets k. -/
theorem tickOf_of_quiet {x : Lane} (h : x.quiet = true) (now k : Nat) :
    tickOf now x k = { x with clock := { x.clock with k := k } } := by
  obtain ⟨hfirings, hpending, hopening⟩ := quiet_iff.1 h
  have hidle : ({ x with clock := { x.clock with k := k } } : Lane).ejectorTick now (tickTime x.clock.ln k) =
      { x with clock := { x.clock with k := k } } :=
    ejectorTick_of_idle (x := { x with clock := { x.clock with k := k } }) hfirings (fun v => ⟨hpending v, firingOpen_of_opening (hopening v)⟩) _ _
  have hquiet : ({ x with clock := { x.clock with k := k } } : Lane).quiet = x.quiet := rfl
  rw [tickOf_eq, hidle, Lane.evaluated, hquiet, if_neg (by simp)]

/-- A drain condition found at a tick finds the lane empty. -/
theorem tickOf_drained {now k : Nat} {x : Lane} (hdue : x.drainDue = false) (h : (tickOf now x k).drainDue = true) :
    (tickOf now x k).objects = [] ∧ (tickOf now x k).quiet = true := by
  have htick := tickOf_eq now x k
  obtain ⟨y, hy⟩ : ∃ y, y = ({ x with clock := { x.clock with k := k } } : Lane).ejectorTick now (tickTime x.clock.ln k) := ⟨_, rfl⟩
  have htame := Lane.tame_ejectorTick ({ x with clock := { x.clock with k := k } } : Lane) now (tickTime x.clock.ln k)
  rw [← hy] at htame htick
  have hkept : y.drainDue = false := htame.due.trans hdue
  rw [htick, Lane.evaluated] at h ⊢
  split at h
  · rename_i hfound
    rw [if_pos hfound]
    obtain ⟨-, hobjects, hquiet⟩ := drained_iff.1 h
    exact ⟨hobjects, hquiet⟩
  · rw [hkept] at h
    cases h

/-- The ticks left are taken in rising order. -/
theorem ticksLeft_eq (c : Clock) : ticksLeft c 15 = List.range' (c.k + 1) (15 - c.k) := by
  have hall : ∀ a : Fin 16, ((List.range 16).filter fun k => decide (a.val < k ∧ k ≤ 15)) = List.range' (a.val + 1) (15 - a.val) := by
    decide
  by_cases hk : c.k < 16
  · exact hall ⟨c.k, hk⟩
  · rw [ticksLeft, List.filter_eq_nil_iff.2 (fun k _ => by rw [decide_eq_true_eq]; omega), Nat.sub_eq_zero_of_le (by omega)]
    rfl

/-! ### A lane that has entered HOLD at a tick -/

/-- A lane that has entered HOLD with its assembly discarded (R156, R17). -/
def Lane.held (y : Lane) : Lane := { y with mode := .hold, drainDue := false, assembly := none }

/-- The lane after the HOLD entry and the swap it brings (R134). -/
def State.heldLane (s : State) (l : LaneId) (y : Lane) : Lane := ((s.setLane l y.held).swapLane l).lane l

theorem heldLane_eq (s : State) (l : LaneId) (y : Lane) :
    s.heldLane l y = if s.swapWaiting l = true then y.held.takeTable s.rtu.staged l else y.held := by
  have hwait : (s.setLane l y.held).swapWaiting l = s.swapWaiting l := swapWaiting_congr (setLane_rtu _ _ _) l
  rw [State.heldLane, swapLane_lane, hwait, setLane_rtu, lane_setLane_self]

/-- With no object the swap brings the table alone. -/
theorem heldLane_of_empty (s : State) (l : LaneId) :
    ∃ tb : Option ActiveTable → Option ActiveTable, ∀ y : Lane, y.objects = [] →
      s.heldLane l y = { y with mode := .hold, drainDue := false, assembly := none, table := tb y.table } := by
  cases hw : s.swapWaiting l with
  | false => exact ⟨id, fun y _ => by rw [heldLane_eq, hw]; rfl⟩
  | true =>
    refine ⟨fun _ => some (readTable s.rtu.staged l), fun y hy => ?_⟩
    have hnone : y.held.objects = [] := hy
    rw [heldLane_eq, hw, if_pos rfl, Lane.takeTable, Lane.markMixed, hnone]
    simp only [Lane.held, hy, List.map_nil, Option.map_none]

theorem completeCommand_rwu (s : State) (c : CommandStatus) (d : Word) :
    (s.completeCommand c d).rwu = s.rwu ∨ ∃ r, (s.completeCommand c d).rwu = s.rwu.enqueue r := by
  unfold State.completeCommand
  split
  · exact .inr ⟨_, rfl⟩
  · exact .inl rfl

/-- A swap makes at most one record, the answer of the commit it completes (R137). -/
theorem swapLane_rwu (s : State) (l : LaneId) :
    (s.swapLane l).rwu = s.rwu ∨ ∃ r, (s.swapLane l).rwu = s.rwu.enqueue r := by
  cases hw : s.swapWaiting l with
  | false => exact .inl (by rw [swapLane_of_not_waiting hw])
  | true =>
    obtain ⟨mask, swapped, hcommit⟩ := swapping_of_swapWaiting hw
    have hlane := modLane_rwu s l fun x => x.takeTable s.rtu.staged l
    rw [swapLane_of_waiting hcommit hw]
    split
    · rw [State.endCommit, ← hlane]
      exact completeCommand_rwu _ _ _
    · exact .inl hlane

theorem swapLane_report (s : State) (l m : LaneId) : (s.swapLane l).rwu.report m = s.rwu.report m := by
  obtain h | ⟨r, h⟩ := swapLane_rwu s l
  · rw [h]
  · rw [h, enqueue_report]

theorem enqueue_queue_append (w : Rwu) (r : Record) : ∃ more, more.length ≤ 1 ∧ (w.enqueue r).queue = w.queue ++ more := by
  obtain ⟨-, he⟩ | ⟨-, he⟩ := enqueue_cases w r
  · exact ⟨_, le_refl 1, by rw [he]⟩
  · exact ⟨[], by simp, by rw [he, List.append_nil]⟩

theorem swapLane_queue (s : State) (l : LaneId) :
    ∃ more, more.length ≤ 1 ∧ (s.swapLane l).rwu.queue = s.rwu.queue ++ more := by
  obtain h | ⟨r, h⟩ := swapLane_rwu s l
  · exact ⟨[], by simp, by rw [h, List.append_nil]⟩
  · rw [h]
    exact enqueue_queue_append _ _

/-- What a swap does to the recipe unit depends on the recipe unit alone. -/
theorem swapLane_rtu_congr {s t : State} (h : t.rtu = s.rtu) (l : LaneId) : (t.swapLane l).rtu = (s.swapLane l).rtu := by
  have hwait := swapWaiting_congr h l
  cases hw : s.swapWaiting l with
  | false => rw [swapLane_of_not_waiting hw, swapLane_of_not_waiting (hwait.trans hw), h]
  | true =>
    obtain ⟨mask, swapped, hcommit⟩ := swapping_of_swapWaiting hw
    rw [swapLane_of_waiting hcommit hw, swapLane_of_waiting (h ▸ hcommit) (hwait.trans hw)]
    split
    · rw [endCommit_rtu, endCommit_rtu, modLane_rtu, modLane_rtu, h]
    · rw [h]

/-- From `s` to `t` the lane has entered HOLD at a tick and stands otherwise where `y` stands; the records `recs` were made after
those of the HOLD entry and its swap. -/
structure State.HeldAt (s t : State) (l : LaneId) (y : Lane) (recs : List Record) : Prop where
  drain : (s.lane l).mode = .drain
  objects : y.objects = []
  quiet : y.quiet = true
  lane : t.lane l = s.heldLane l y
  rtu : t.rtu = (s.swapLane l).rtu
  path : s.SamePath t
  work : s.Worked {l} t
  report : t.rwu.report l.other = s.rwu.report l.other
  snapshot : ∃ p, (t.rwu.report l).snapshot = some p ∧ p.mode = .hold ∧ p.cause = .modeChange
  records : ∃ w drained, drained.length ≤ 2 ∧ w.queue = s.rwu.queue ++ drained ∧ t.rwu = recs.foldl Rwu.enqueue w

section
variable {recs : List Record}

theorem State.HeldAt.lane_hold {s t : State} {l : LaneId} {y : Lane} (h : s.HeldAt t l y recs) :
    ∃ tb : Option ActiveTable → Option ActiveTable,
      t.lane l = { y with mode := .hold, drainDue := false, assembly := none, table := tb y.table } ∧
      ∀ z : Lane, z.objects = [] → s.heldLane l z = { z with mode := .hold, drainDue := false, assembly := none, table := tb z.table } := by
  obtain ⟨tb, htb⟩ := heldLane_of_empty s l
  exact ⟨tb, by rw [h.lane, htb y h.objects], htb⟩

theorem State.HeldAt.mode {s t : State} {l : LaneId} {y : Lane} (h : s.HeldAt t l y recs) : (t.lane l).mode = .hold := by
  obtain ⟨tb, hlane, -⟩ := h.lane_hold
  rw [hlane]

theorem State.HeldAt.not_waiting {s t : State} {l : LaneId} {y : Lane} (h : s.HeldAt t l y recs) : t.swapWaiting l = false := by
  rw [swapWaiting_congr h.rtu, swapWaiting_swapLane]

/-- Further work on the lane alone that does the same to the lane described. -/
theorem State.HeldAt.setLane {s t : State} {l : LaneId} {y : Lane} (h : s.HeldAt t l y recs) {x z : Lane} (hkept : (t.lane l).Kept x)
    (hobjects : z.objects = []) (hquiet : z.quiet = true) (hx : x = s.heldLane l z) :
    s.HeldAt (t.setLane l x) l z recs where
  drain := h.drain
  objects := hobjects
  quiet := hquiet
  lane := by rw [lane_setLane_self, hx]
  rtu := (setLane_rtu _ _ _).trans h.rtu
  path := h.path.trans (samePath_setLane _ _ _)
  work := h.work.trans (worked_setLane (Set.mem_singleton l) hkept)
  report := by rw [setLane_rwu, h.report]
  snapshot := by rw [setLane_rwu]; exact h.snapshot
  records := by rw [setLane_rwu]; exact h.records

theorem State.HeldAt.record {s t : State} {l : LaneId} {y : Lane} (h : s.HeldAt t l y recs) (r : Record) : 
    s.HeldAt (t.record r) l y (recs ++ [r]) where
  drain := h.drain
  objects := h.objects
  quiet := h.quiet
  lane := by rw [record_lane, h.lane]
  rtu := h.rtu
  path := h.path.trans (samePath_record _ _)
  work := h.work.trans (worked_record _ _)
  report := by rw [← h.report]; exact enqueue_report _ _ _
  snapshot := by
    have hsame : (t.record r).rwu.report l = t.rwu.report l := enqueue_report _ _ _
    rw [hsame]
    exact h.snapshot
  records := by
    obtain ⟨w, drained, hfew, hqueue, hrwu⟩ := h.records
    exact ⟨w, drained, hfew, hqueue, by rw [record_rwu, hrwu, List.foldl_append]; rfl⟩

/-- A tick of the lane that has entered HOLD sets k, as it does in the lane described. -/
theorem State.HeldAt.takeTick {s t : State} {l : LaneId} {y : Lane} (h : s.HeldAt t l y recs) {k : Nat} (hk : k ≤ 15) :
    s.HeldAt (t.takeTick l k) l (tickOf s.now y k) recs := by
  obtain ⟨tb, hlane, hheld⟩ := h.lane_hold
  have hquiet : (t.lane l).quiet = true := by
    rw [hlane]
    exact h.quiet
  have hy := tickOf_of_quiet h.quiet s.now k
  have hkept : (t.lane l).Kept ((t.takeTick l k).lane l) := (worked_takeTick t (Set.mem_singleton l) hk).lanes l
  rw [takeTick_tickOf] at hkept
  rw [takeTick_eq_setLane, hy]
  refine h.setLane hkept h.objects h.quiet ?_
  rw [hheld { y with clock := { y.clock with k := k } } h.objects, tickOf_of_quiet hquiet, hlane]

/-- The ticks that follow the HOLD entry. -/
theorem State.HeldAt.ticksFrom {s t : State} {l : LaneId} {y : Lane} (h : s.HeldAt t l y recs) {k n : Nat} (hk : k + n ≤ 16) :
    s.HeldAt (t.ticksFrom l k n) l (ticksOf s.now (List.range' k n) y) recs := by
  induction n generalizing t k y with
  | zero => exact h
  | succ n ih =>
    have htick := h.takeTick (k := k) (by omega)
    have hdrain : (t.takeTick l k).settleDrain l = t.takeTick l k := by
      rw [State.settleDrain, if_neg (by rw [htick.mode]; simp)]
    have hswap : (t.takeTick l k).settleSwap l = t.takeTick l k := by
      unfold State.settleSwap
      split
      · rfl
      · exact swapLane_of_not_waiting htick.not_waiting
    rw [State.ticksFrom, hdrain, hswap, List.range'_succ]
    exact ih htick (by omega)

end

/-! ### The HOLD entry -/

theorem captureIfWaiting_report (s : State) (l m : LaneId) : (s.captureIfWaiting l).rwu.report m = s.rwu.report m := by
  unfold State.captureIfWaiting
  split
  · cases m <;> rfl
  · rfl

theorem captureIfWaiting_queue (s : State) (l : LaneId) : (s.captureIfWaiting l).rwu.queue = s.rwu.queue := by
  unfold State.captureIfWaiting
  split <;> rfl

theorem captureIfWaiting_dropCount (s : State) (l : LaneId) : (s.captureIfWaiting l).rwu.dropCount = s.rwu.dropCount := by
  unfold State.captureIfWaiting
  split <;> rfl

theorem captureIfWaiting_rtu (s : State) (l : LaneId) : (s.captureIfWaiting l).rtu = s.rtu := by
  unfold State.captureIfWaiting
  split <;> rfl

theorem enterHold_rtu (s : State) (l : LaneId) : (s.enterHold l).rtu = s.rtu := by
  have hmode := (setMode_rest (s.captureIfWaiting l) l .hold .drained 0).2.1
  show (((s.captureIfWaiting l).setMode l .hold .drained 0).modLane l Lane.discardAssembly).rtu = s.rtu
  rw [modLane_rtu, hmode, captureIfWaiting_rtu]

/-- The HOLD entry makes its record and takes the lane's snapshot, in HOLD (R156, R158). -/
theorem enterHold_report (s : State) (l : LaneId) :
    (s.enterHold l).rwu.report l.other = s.rwu.report l.other ∧
      ∃ p, ((s.enterHold l).rwu.report l).snapshot = some p ∧ p.mode = .hold ∧ p.cause = .modeChange := by
  obtain ⟨u, hu⟩ : ∃ u, u = ((s.captureIfWaiting l).setMode l .hold .drained 0).modLane l Lane.discardAssembly := ⟨_, rfl⟩
  have hmode : (u.lane l).mode = .hold := by
    rw [hu, lane_modLane_self, setMode_lane]
    rfl
  have hreport (m : LaneId) : u.rwu.report m = s.rwu.report m := by
    rw [hu, modLane_rwu, setMode_rwu, enqueue_report, captureIfWaiting_report]
  obtain ⟨hown, hother⟩ := takeSnapshot_report u l .modeChange
  have henter : s.enterHold l = u.takeSnapshot l .modeChange := by rw [hu]; rfl
  rw [henter, hother, hown]
  exact ⟨hreport _, _, rfl, hmode, rfl⟩

theorem enterHold_queue (s : State) (l : LaneId) :
    ∃ more, more.length ≤ 1 ∧ (s.enterHold l).rwu.queue = s.rwu.queue ++ more := by
  obtain ⟨more, hlength, hqueue⟩ := enqueue_queue_append (s.captureIfWaiting l).rwu
    (.modeChange l ((s.captureIfWaiting l).lane l).mode .hold .drained 0 ((s.captureIfWaiting l).lane l).clock.ln)
  refine ⟨more, hlength, ?_⟩
  have hsame : (s.enterHold l).rwu.queue = ((s.captureIfWaiting l).setMode l .hold .drained 0).rwu.queue := by
    rw [← modLane_rwu ((s.captureIfWaiting l).setMode l .hold .drained 0) l Lane.discardAssembly]
    exact setReport_queue _ _ _
  rw [hsame, setMode_rwu, hqueue, captureIfWaiting_queue]

/-- The HOLD entry at a tick, with the swap it brings (R156, R134, log entry 13). -/
theorem heldAt_of_enterHold {s t : State} {l : LaneId} {y : Lane} (ht : t = s.setLane l y) (hdrain : (s.lane l).mode = .drain)
    (hobjects : y.objects = []) (hquiet : y.quiet = true) (hkept : (s.lane l).Kept y) :
    s.HeldAt ((t.enterHold l).swapLane l) l y [] := by
  have hrtu : (t.enterHold l).rtu = s.rtu := by rw [enterHold_rtu, ht, setLane_rtu]
  obtain ⟨hother, hsnapshot⟩ := enterHold_report t l
  exact
    { drain := hdrain
      objects := hobjects
      quiet := hquiet
      lane := by
        rw [swapLane_lane, swapWaiting_congr hrtu, enterHold_lane, hrtu, heldLane_eq, ht, lane_setLane_self]
        rfl
      rtu := swapLane_rtu_congr hrtu l
      path := by
        rw [ht]
        exact ((samePath_setLane _ _ _).trans (samePath_enterHold _ _)).trans (samePath_swapLane _ _)
      work := by
        rw [ht]
        exact ((worked_setLane (Set.mem_singleton l) hkept).trans (worked_enterHold _ (Set.mem_singleton l))).trans
          (worked_swapLane _ (Set.mem_singleton l))
      report := by rw [swapLane_report, hother, ht, setLane_rwu]
      snapshot := by rw [swapLane_report]; exact hsnapshot
      records := by
        obtain ⟨entry, hentry, hfirst⟩ := enterHold_queue t l
        obtain ⟨swap, hswap, hsecond⟩ := swapLane_queue (t.enterHold l) l
        refine ⟨_, entry ++ swap, by rw [List.length_append]; omega, ?_, rfl⟩
        rw [hsecond, hfirst, ht, setLane_rwu, List.append_assoc] }

/-- A lane that has entered HOLD counted from an earlier state of its lane. -/
theorem State.HeldAt.of_setLane {s t : State} {l : LaneId} {x y : Lane} {recs : List Record} (h : (s.setLane l x).HeldAt t l y recs)
    (hmode : x.mode = (s.lane l).mode) (hkept : (s.lane l).Kept x) : s.HeldAt t l y recs where
  drain := by rw [← hmode, ← h.drain, lane_setLane_self]
  objects := h.objects
  quiet := h.quiet
  lane := by rw [h.lane, heldLane_eq, heldLane_eq, swapWaiting_congr (setLane_rtu _ _ _), setLane_rtu]
  rtu := by rw [h.rtu, swapLane_rtu_congr (setLane_rtu _ _ _)]
  path := (samePath_setLane s l x).trans h.path
  work := (worked_setLane (Set.mem_singleton l) hkept).trans h.work
  report := by rw [h.report, setLane_rwu]
  snapshot := h.snapshot
  records := by
    obtain ⟨w, drained, hfew, hqueue, hrwu⟩ := h.records
    exact ⟨w, drained, hfew, by rw [hqueue, setLane_rwu], hrwu⟩

theorem setLane_setLane (s : State) (l : LaneId) (x y : Lane) : (s.setLane l x).setLane l y = s.setLane l y := by
  cases l <;> rfl

/-- The ticks of a line taken at once: as the statements describe them, until one finds the drain condition to hold. -/
theorem ticksFrom_cases {s : State} {l : LaneId} (hwait : (s.lane l).mode.sorting = false → s.swapWaiting l = false)
    (hdue : (s.lane l).mode = .drain → (s.lane l).drainDue = false) {k n : Nat} (hk : k + n ≤ 16) :
    s.ticksFrom l k n = s.setLane l (ticksOf s.now (List.range' k n) (s.lane l)) ∨
      s.HeldAt (s.ticksFrom l k n) l (ticksOf s.now (List.range' k n) (s.lane l)) [] := by
  induction n generalizing s k with
  | zero => exact .inl (setLane_lane s l).symm
  | succ n ih =>
    obtain ⟨y, hy⟩ : ∃ y, y = tickOf s.now (s.lane l) k := ⟨_, rfl⟩
    have hmode : y.mode = (s.lane l).mode := by rw [hy, tickOf_same]
    have hkept : (s.lane l).Kept y := by
      rw [hy, ← takeTick_tickOf]
      exact (worked_takeTick s (Set.mem_singleton l) (by omega)).lanes l
    have htick : s.takeTick l k = s.setLane l y := by rw [takeTick_eq_setLane, hy]
    have hlist : ticksOf s.now (List.range' k (n + 1)) (s.lane l) = ticksOf s.now (List.range' (k + 1) n) y := by
      rw [List.range'_succ, hy]
      rfl
    rw [State.ticksFrom, htick, hlist]
    by_cases hentry : y.mode = .drain ∧ y.drainDue = true
    · right
      have hdrain : (s.lane l).mode = .drain := hmode ▸ hentry.1
      obtain ⟨hobjects, hquiet⟩ := hy ▸ tickOf_drained (now := s.now) (k := k) (hdue hdrain) (hy ▸ hentry.2)
      have hheld := heldAt_of_enterHold rfl hdrain hobjects hquiet hkept
      have hsettle : (s.setLane l y).settleDrain l = (s.setLane l y).enterHold l := by
        rw [State.settleDrain, lane_setLane_self, if_pos hentry]
      have hhold : (((s.setLane l y).enterHold l).lane l).mode = .hold := by rw [enterHold_lane]
      have hswap : ((s.setLane l y).enterHold l).settleSwap l = ((s.setLane l y).enterHold l).swapLane l := by
        rw [State.settleSwap, hhold]
        rfl
      rw [hsettle, hswap]
      exact hheld.ticksFrom (by omega)
    · have hsettle : (s.setLane l y).settleDrain l = s.setLane l y := by
        rw [State.settleDrain, lane_setLane_self, if_neg hentry]
      have hswap : (s.setLane l y).settleSwap l = s.setLane l y := by
        unfold State.settleSwap
        rw [lane_setLane_self, hmode]
        split
        · rfl
        · rename_i hnot
          exact swapLane_of_not_waiting (by rw [swapWaiting_congr (setLane_rtu _ _ _), hwait (Bool.eq_false_iff.2 hnot)])
      have hnow : (s.setLane l y).now = s.now := setLane_now _ _ _
      have hlane : (s.setLane l y).lane l = y := lane_setLane_self _ _ _
      have hcases := ih (s := s.setLane l y) (k := k + 1)
        (by rw [hlane, hmode, swapWaiting_congr (setLane_rtu _ _ _)]; exact hwait)
        (by rw [hlane]; exact fun hm => Bool.eq_false_iff.2 fun hd => hentry ⟨hm, hd⟩) (by omega)
      rw [hnow, hlane, setLane_setLane] at hcases
      rw [hsettle, hswap]
      exact hcases.imp_right fun h => h.of_setLane hmode hkept

end Sys2Proof.Machine

/-! ## Proofs: a line start that reaches the LIU (O43, O45, O47, O48) -/
namespace Sys2Proof.Machine

/-! ### The part between the clock's steps -/

/-- From `s` to `t` the lane stands as described by `y`, with the records `recs` made; or it has entered HOLD at a tick. -/
def State.Ran (s t : State) (l : LaneId) (y : Lane) (recs : List Record) : Prop := t = s.apply l (y, recs) ∨ s.HeldAt t l y recs

/-- Work on clock and counters that looks at nothing else of a lane. -/
structure Lane.ClockWork (f : Lane → Lane) (y : Lane) : Prop where
  commutes : ∀ (m : LaneMode) (b : Bool) (a : Option Assembly) (tb : Option ActiveTable),
    f { y with mode := m, drainDue := b, assembly := a, table := tb } = { f y with mode := m, drainDue := b, assembly := a, table := tb }
  objects : (f y).objects = y.objects
  firings : (f y).firings = y.firings
  valves : (f y).valves = y.valves
  kept : ∀ x : Lane, x.Kept (f x)

namespace State.Ran

variable {s t : State} {l : LaneId} {y : Lane} {recs : List Record}

theorem setLane_of (s : State) (l : LaneId) (y : Lane) : s.Ran (s.setLane l y) l y [] := .inl rfl

theorem now (h : s.Ran t l y recs) : t.now = s.now := by
  obtain rfl | h := h
  · exact (samePath_apply _ _ _).now
  · exact h.path.now

/-- The clock is the one described, whether the lane has entered HOLD or not. -/
theorem clock (h : s.Ran t l y recs) : (t.lane l).clock = y.clock := by
  obtain rfl | h := h
  · rw [apply_lane_self]
  · obtain ⟨tb, hlane, -⟩ := h.lane_hold
    rw [hlane]

theorem counters (h : s.Ran t l y recs) : (t.lane l).counters = y.counters := by
  obtain rfl | h := h
  · rw [apply_lane_self]
  · obtain ⟨tb, hlane, -⟩ := h.lane_hold
    rw [hlane]

theorem slot (h : s.Ran t l y recs) (hslot : s.cmu.slot = none) : t.cmu.slot = none := by
  obtain rfl | h := h
  · rw [apply_cmu, hslot]
  · exact h.work.slot.trans hslot

/-- The records made join the queue at its tail. -/
theorem queue (h : s.Ran t l y recs) : s.rwu.queue <+: t.rwu.queue := by
  obtain rfl | h := h
  · rw [apply_rwu]
    exact prefix_foldl_enqueue _ _
  · obtain ⟨w, drained, -, hqueue, hrwu⟩ := h.records
    rw [hrwu]
    exact List.IsPrefix.trans ⟨drained, hqueue.symm⟩ (prefix_foldl_enqueue _ _)

theorem takeTick (h : s.Ran t l y recs) {k : Nat} (hk : k ≤ 15) : s.Ran (t.takeTick l k) l (tickOf s.now y k) recs := by
  have hnow := h.now
  obtain rfl | h := h
  · left
    rw [takeTick_eq_setLane, apply_lane_self, hnow]
    exact modLane_apply s l (y, recs) fun _ => tickOf s.now y k
  · exact .inr (h.takeTick hk)

theorem modLane (h : s.Ran t l y recs) {f : Lane → Lane} (hf : Lane.ClockWork f y) : s.Ran (t.modLane l f) l (f y) recs := by
  obtain rfl | h := h
  · exact .inl (modLane_apply s l (y, recs) f)
  · obtain ⟨tb, hlane, hheld⟩ := h.lane_hold
    have hquiet : (f y).quiet = true := by rw [quiet_of_same hf.firings hf.valves, h.quiet]
    have hobjects : (f y).objects = [] := hf.objects.trans h.objects
    have hown := congrArg Lane.table (hf.commutes y.mode y.drainDue y.assembly y.table)
    have htable : (f y).table = y.table := hown
    refine .inr (h.setLane (hf.kept _) hobjects hquiet ?_)
    rw [hlane, hf.commutes, hheld (f y) hobjects, htable]

theorem record (h : s.Ran t l y recs) (r : Record) : s.Ran (t.record r) l y (recs ++ [r]) := by
  obtain rfl | h := h
  · left
    cases l <;> simp [State.apply, State.records, State.record, State.setLane, List.foldl_append]
  · exact .inr (h.record r)

end State.Ran

/-- The ticks left of a line, from a part that owes nothing (R112, R117, R118). -/
theorem ran_remainingTicks {s : State} {l : LaneId} (hwait : (s.lane l).mode.sorting = false → s.swapWaiting l = false)
    (hdue : (s.lane l).mode = .drain → (s.lane l).drainDue = false) :
    s.Ran (s.remainingTicks l) l (ticksOf s.now (ticksLeft (s.lane l).clock 15) (s.lane l)) [] := by
  rw [State.remainingTicks, ticksLeft_eq]
  by_cases hk : (s.lane l).clock.k ≤ 15
  · exact ticksFrom_cases hwait hdue (by omega)
  · rw [Nat.sub_eq_zero_of_le (by omega)]
    exact .inl (setLane_lane s l).symm

/-! ### The LIU at a line start -/

theorem intakeLineStart_rwu (s : State) (l : LaneId) :
    s.rwu.queue <+: (s.intakeLineStart l).rwu.queue ∧ ∀ m, (s.intakeLineStart l).rwu.report m = s.rwu.report m := by
  have hsame : s.rwu.queue <+: s.rwu.queue ∧ ∀ m, s.rwu.report m = s.rwu.report m := ⟨List.prefix_refl _, fun _ => rfl⟩
  by_cases hsorting : (s.lane l).mode = .run ∨ (s.lane l).mode = .drain
  · rw [intakeLineStart_sorting hsorting]
    by_cases hnear : lineDiff (s.lane l).clock.ln (s.lane l).expected < (s.lane l).block.dataWait
    · rw [expire_of_near hnear]
      exact hsame
    · obtain ⟨base, hbase⟩ : ∃ base, base = (s.apply l (lateEnd l (s.lane l))).swapLane l := ⟨_, rfl⟩
      obtain ⟨-, -, -, -, hexpire⟩ := expire_eq_base (by omega) rfl hbase rfl rfl
      rw [hexpire, apply_rwu]
      refine ⟨?_, fun m => ?_⟩
      · have hlate := prefix_foldl_enqueue (lateEnd l (s.lane l)).2 s.rwu
        have hswap := prefix_swapLane (s.apply l (lateEnd l (s.lane l))) l
        rw [apply_rwu, ← hbase] at hswap
        exact (hlate.trans hswap).trans (prefix_foldl_enqueue _ _)
      · rw [foldl_enqueue_report, hbase, swapLane_report, apply_rwu, foldl_enqueue_report]
  · by_cases hhold : (s.lane l).mode = .hold
    · rw [intakeLineStart_hold hhold, setLane_rwu]
      exact hsame
    · have hidle : s.intakeLineStart l = s := by
        cases hm : (s.lane l).mode <;> simp_all [State.intakeLineStart]
      rw [hidle]
      exact hsame

/-- A line start at the LIU finds no drain condition and opens no valve; it keeps mode and clock. -/
theorem intakeLineStart_lane (s : State) (l : LaneId) :
    ((s.intakeLineStart l).lane l).mode = (s.lane l).mode ∧ ((s.intakeLineStart l).lane l).clock = (s.lane l).clock ∧
      ((s.intakeLineStart l).lane l).drainDue = (s.lane l).drainDue ∧
      ((s.intakeLineStart l).lane l).counters.jitter = (s.lane l).counters.jitter ∧
      ((s.intakeLineStart l).lane l).counters.coastEpisodes = (s.lane l).counters.coastEpisodes := by
  by_cases hsorting : (s.lane l).mode = .run ∨ (s.lane l).mode = .drain
  · rw [intakeLineStart_sorting hsorting]
    obtain ⟨n, -, h⟩ := handed_expire s l (s.lane l).linesBehind
    exact ⟨h.mode, h.clock, h.due, h.jitter, h.coastEpisodes⟩
  · by_cases hhold : (s.lane l).mode = .hold
    · rw [intakeLineStart_hold hhold, lane_setLane_self]
      exact ⟨rfl, rfl, rfl, rfl, rfl⟩
    · have hidle : s.intakeLineStart l = s := by
        cases hm : (s.lane l).mode <;> simp_all [State.intakeLineStart]
      rw [hidle]
      exact ⟨rfl, rfl, rfl, rfl, rfl⟩

/-! ### The end of the event -/

theorem lineBoundary_rwu (s : State) (l : LaneId) (n : Nat) : (s.lineBoundary l n).rwu = s.rwu ∧ (s.lineBoundary l n).rtu = s.rtu := by
  unfold State.lineBoundary
  split <;> exact ⟨rfl, rfl⟩

theorem intervalSnapshot_rtu (s : State) (l : LaneId) (b : Word) (n : Nat) : (s.intervalSnapshot l b n).rtu = s.rtu := by
  unfold State.intervalSnapshot
  dsimp only
  split <;> rfl

theorem closeIntake_rwu (s : State) (l : LaneId) (y : Lane) :
    (s.closeIntake l y).rwu = (s.intervalSnapshot l y.counters.linesProcessed
      ((s.lane l).counters.linesProcessed - y.counters.linesProcessed).toNat).rwu := by
  unfold State.closeIntake
  dsimp only
  rw [evaluateDrain_eq, modLane_rwu, (lineBoundary_rwu _ _ _).1]
  rfl

theorem closeIntake_rtu (s : State) (l : LaneId) (y : Lane) : (s.closeIntake l y).rtu = s.rtu := by
  unfold State.closeIntake
  dsimp only
  rw [evaluateDrain_eq, modLane_rtu, (lineBoundary_rwu _ _ _).2, intervalSnapshot_rtu]

/-- With no command pending, what the end of an intake event leaves (R174, R156). -/
theorem endIntake_shape {u : State} (hslot : u.cmu.slot = none) {l : LaneId} {y : Lane} {lines interval : Nat}
    (hlines : lines = ((u.lane l).counters.linesProcessed - y.counters.linesProcessed).toNat)
    (hinterval : interval = 1024 * 4 ^ (u.lane l).block.statsIntervalCode) :
    (u.endIntake l y).rwu =
        (if 0 < lines ∧ interval ≤ y.counters.linesProcessed.toNat % interval + lines then (u.takeSnapshot l .interval).rwu else u.rwu) ∧
      (u.endIntake l y).rtu = u.rtu ∧ (u.endIntake l y).lane l = (u.lane l).evaluated y.quiet lines ∧
        (u.endIntake l y).lane l.other = u.lane l.other := by
  rw [endIntake_of_slot_none hslot]
  refine ⟨?_, ?_, ?_, (worked_closeIntake u (Set.mem_singleton l) y).other _ (other_lane_ne l)⟩
  · rw [closeIntake_rwu, ← hlines, State.intervalSnapshot, Lane.interval, ← hinterval]
    split <;> rfl
  · exact closeIntake_rtu u l y
  · rw [closeIntake_lane, hlines]
    rfl

/-- The drain condition at the end of an event that may have handed lines (R156). -/
theorem evaluated_afterLines {x y : Lane} {lines : Nat} (hmode : x.mode = y.mode) (hdue : x.drainDue = y.drainDue)
    (hlines : lines = (x.counters.linesProcessed - y.counters.linesProcessed).toNat) :
    x.evaluated y.quiet lines = { x with drainDue := drainFoundAfterLines y x } := by
  have hhanded : 0 < lines ↔ x.counters.linesProcessed ≠ y.counters.linesProcessed := by
    have hzero : (x.counters.linesProcessed - y.counters.linesProcessed).toNat = 0 ↔
        x.counters.linesProcessed = y.counters.linesProcessed :=
      ⟨fun h => sub_eq_zero.1 (BitVec.eq_of_toNat_eq h), fun h => by rw [h, sub_self]; rfl⟩
    rw [hlines, Nat.pos_iff_ne_zero, Ne, hzero]
  unfold Lane.evaluated drainFoundAfterLines
  by_cases hfound : y.mode = .drain ∧ (x.counters.linesProcessed ≠ y.counters.linesProcessed ∨ x.quiet ≠ y.quiet)
  · rw [if_pos hfound, if_pos ⟨hmode.trans hfound.1, hfound.2.imp_left hhanded.2⟩]
  · rw [if_neg hfound, if_neg fun h => hfound ⟨hmode.symm.trans h.1, h.2.imp_left hhanded.1⟩, ← hdue]

/-- What the line start leaves of a part that stands as described or has entered HOLD (log entries 12 and 13). -/
theorem lineStarted_of_ran_after {s base v : State} {after : Nat} {l : LaneId} {x y : Lane} {first recs : List Record}
    (hslot : s.cmu.slot = none) (hbase : base = (s.pass after).apply l (x, first)) (hx : x.mode = (s.lane l).mode)
    (hran : base.Ran v l y recs) (hmode : y.mode = (s.lane l).mode) :
    lineStarted s (v.reachIntake l) after l y (first ++ recs) := by
  have hvslot : v.cmu.slot = none := hran.slot (by rw [hbase, apply_cmu]; exact hslot)
  have hbaserecipe : base.rtu = s.rtu := by rw [hbase, apply_rtu]; rfl
  have hbaseother : base.lane l.other = s.lane l.other := by rw [hbase, apply_lane_ne _ _ (other_lane_ne l), pass_lane]
  have hbasemode : (base.lane l).mode = (s.lane l).mode := by rw [hbase, apply_lane_self, hx]
  have hbasereport (m : LaneId) : base.rwu.report m = s.rwu.report m := by
    rw [hbase, apply_rwu, foldl_enqueue_report]
    rfl
  have hbaseevents : base.events = s.events + 1 := by
    rw [hbase, (samePath_apply _ _ _).events]
    rfl
  have hgoal (b : State) (hb : b = ((s.pass after).setLane l y).records (first ++ recs)) : b = base.apply l (y, recs) := by
    rw [hb, hbase, apply_apply]
    rfl
  have hwork := worked_intakeLineStart v (Set.mem_singleton l)
  have huslot : (v.intakeLineStart l).cmu.slot = none := hwork.slot.trans hvslot
  obtain ⟨hulane, -, hudue, -, -⟩ := intakeLineStart_lane v l
  have hfinal := (reachIntake_keeps hvslot l).1
  obtain ⟨hrwu, hrtu, hlane, hother⟩ := endIntake_shape huslot (l := l) (y := v.lane l) rfl rfl
  obtain ⟨-, hreport⟩ := intakeLineStart_rwu v l
  obtain hv | hheld := hran
  · have hvlane : v.lane l = y := by rw [hv, apply_lane_self]
    rw [hvlane] at hfinal hlane hulane hudue hrwu hother hrtu
    have htlane := evaluated_afterLines hulane hudue rfl
    have hvreport (m : LaneId) : (v.intakeLineStart l).rwu.report m = s.rwu.report m := by
      rw [hreport, hv, apply_rwu, foldl_enqueue_report, hbasereport]
    refine ⟨?_, ?_, fun _ b u lines interval hb hu hlines hinterval => ?_, fun hne => absurd (hfinal.trans hmode) hne⟩
    · show ((v.intakeLineStart l).endIntake l (v.lane l)).lane l.other = _
      rw [hvlane, hother, hwork.other _ (other_lane_ne l), hv, apply_lane_ne _ _ (other_lane_ne l), hbaseother]
    · show ((v.intakeLineStart l).endIntake l (v.lane l)).rwu.report l.other = _
      rw [hvlane, hrwu]
      split
      · rw [(takeSnapshot_report _ l _).2, hvreport]
      · exact hvreport _
    · obtain rfl : b = v := by rw [hgoal b hb, hv]
      have htwo : (b.reachIntake l).rwu = ((b.intakeLineStart l).endIntake l y).rwu ∧
          (b.reachIntake l).lane l = ((b.intakeLineStart l).endIntake l y).lane l ∧
          (b.reachIntake l).rtu = ((b.intakeLineStart l).endIntake l y).rtu := by
        rw [State.reachIntake, hvlane]
        exact ⟨rfl, rfl, rfl⟩
      obtain ⟨hleft, hlanes, hrecipe⟩ := htwo
      have hevents : u.events = s.events + 1 := by
        rw [hu, (samePath_intakeLineStart b l).events, hv, (samePath_apply _ _ _).events, hbaseevents]
      rw [hlanes, hrecipe, hleft, hlane, hrwu, hrtu, htlane, ← hu, ← hlines, ← hinterval]
      refine ⟨rfl, ?_, rfl, fun hdue => ?_, fun hnot => ?_⟩
      · split
        · exact setReport_queue _ _ _
        · rfl
      · rw [if_pos hdue, (takeSnapshot_report u l _).1, hevents, hu, hvreport, snapshotOf, hlanes, hlane, htlane]
      · rw [if_neg hnot, hu, hvreport]
  · have hhold := hheld.mode
    have hstart := intakeLineStart_hold hhold
    have hfinal' : v.reachIntake l = v.intakeLineStart l := by
      rw [State.reachIntake, hstart]
      refine endIntake_same (fun _ => by rw [setLane_cmu]; exact hvslot) ?_ ?_
      · rw [lane_setLane_self]
      · rw [lane_setLane_self]
        rfl
    rw [hfinal'] at hfinal ⊢
    obtain ⟨tb, htb, -⟩ := hheld.lane_hold
    refine ⟨?_, ?_, fun heq => ?_, fun _ => ⟨hbasemode ▸ hheld.drain, hfinal.trans hhold, fun b hb => ⟨?_, ?_⟩, ?_, ?_, ?_⟩⟩
    · rw [hwork.other _ (other_lane_ne l), hheld.work.other _ (other_lane_ne l), hbaseother]
    · rw [hreport, hheld.report, hbasereport]
    · have hdrain : (s.lane l).mode = .drain := hbasemode ▸ hheld.drain
      rw [hfinal, hhold, hdrain] at heq
      cases heq
    · have hblane : b.lane l = v.lane l := by
        rw [hb, hheld.lane, heldLane_eq, swapLane_lane, swapWaiting_congr (setLane_rtu _ _ _), setLane_rtu, lane_setLane_self,
          hbaserecipe, swapWaiting_congr hbaserecipe]
        rfl
      rw [hstart, intakeLineStart_hold (by rw [hblane, hhold]), lane_setLane_self, lane_setLane_self, hblane]
    · rw [hstart, setLane_rtu, hheld.rtu, hb, swapLane_rtu_congr hbaserecipe]
      exact (swapLane_rtu_congr (s := s) (setLane_rtu (s.pass after) l _) l).symm
    · rw [hstart, lane_setLane_self, htb]
      exact hheld.objects
    · rw [hstart, lane_setLane_self, htb]
      exact (quiet_iff.1 hheld.quiet).1
    · rw [hreport]
      exact hheld.snapshot

theorem lineStarted_of_ran {s v : State} {after : Nat} {l : LaneId} {y : Lane} {recs : List Record} (hslot : s.cmu.slot = none)
    (hran : (s.pass after).Ran v l y recs) (hmode : y.mode = (s.lane l).mode) : lineStarted s (v.reachIntake l) after l y recs :=
  lineStarted_of_ran_after (x := s.lane l) (first := []) hslot (by rw [← pass_lane s after l, apply_unchanged]) rfl hran hmode

end Sys2Proof.Machine

/-! ## Proofs: trigger edges that start a line or re-anchor it (O43, O45) -/
namespace Sys2Proof.Machine

/-! ### A tick and the parts of the clock it does not look at -/

theorem foldl_dueTaken_clock (now : Nat) (fs : List Firing) {x : Lane} {c : Clock} (h : c.pq = x.clock.pq) :
    fs.foldl (dueTaken now) { x with clock := c } = { fs.foldl (dueTaken now) x with clock := c } := by
  induction fs generalizing x with
  | nil => rfl
  | cons f fs ih =>
    have hone : dueTaken now { x with clock := c } f = { dueTaken now x f with clock := c } := by
      have hmost : ({ x with clock := c } : Lane).maxOnTicks = x.maxOnTicks := by
        rw [Lane.maxOnTicks, Lane.maxOnTicks, Clock.period, Clock.period, h]
        rfl
      have hvalve : valveAfterDue { x with clock := c } now f = valveAfterDue x now f := by
        funext y
        unfold valveAfterDue
        rw [hmost]
        rfl
      unfold dueTaken
      dsimp only
      by_cases hgood : x.supplyGood = true
      · rw [if_pos hgood, if_pos hgood, hvalve]
        rfl
      · rw [if_neg hgood, if_neg hgood]
    have hsame : (dueTaken now x f).clock = x.clock := by
      have h := foldl_dueTaken_same now [f] x
      rw [List.foldl_cons, List.foldl_nil] at h
      rw [h]
    rw [List.foldl_cons, hone, ih (by rw [hsame]; exact h), List.foldl_cons]

/-- A lane after the ends of tick k, with the entries that come due at it taken from the queue (R86). -/
def Lane.closedAt (x : Lane) (now k : Nat) (t : TickTime) : Lane :=
  { x with
    clock := { x.clock with k := k }, firings := x.firings.filter fun f => f.openTick != t
    valves := x.valves.map (closedAtTick x now t)
    counters :=
      { x.counters with
        missedValveBusy := x.counters.missedValveBusy +
          BitVec.ofNat 32 (x.countValves fun y => y.pending.map Firing.closeTick == some t) } }

/-- A lane after tick k, its drain condition not yet evaluated. -/
def Lane.takenAt (x : Lane) (now k : Nat) (t : TickTime) : Lane :=
  (x.firings.filter fun f => f.openTick == t).foldl (dueTaken now) (x.closedAt now k t)

theorem tickOf_taken (now : Nat) (x : Lane) (k : Nat) :
    tickOf now x k =
      { x.takenAt now k (tickTime x.clock.ln k) with drainDue := drainFound x (x.takenAt now k (tickTime x.clock.ln k)) } := rfl

theorem takenAt_clock (now : Nat) {x : Lane} {c : Clock} (hpq : c.pq = x.clock.pq) (k : Nat) (t : TickTime) :
    ({ x with clock := c } : Lane).takenAt now k t = { x.takenAt now k t with clock := { c with k := k } } := by
  have hrec : ({ x with clock := c } : Lane).recTicks = x.recTicks := by
    rw [Lane.recTicks, Lane.recTicks, Clock.period, Clock.period, hpq]
    rfl
  have hclosed : closedAtTick { x with clock := c } now t = closedAtTick x now t := by
    funext y
    unfold closedAtTick
    rw [hrec]
    rfl
  have hended : ({ x with clock := c } : Lane).closedAt now k t = { x.closedAt now k t with clock := { c with k := k } } := by
    rw [Lane.closedAt, hclosed]
    rfl
  rw [Lane.takenAt, hended]
  exact foldl_dueTaken_clock now _ (x := x.closedAt now k t) (c := { c with k := k }) hpq

/-- A tick looks at LN and Pq of the clock and writes k. -/
theorem tickOf_clock (now : Nat) {x : Lane} {c : Clock} (hln : c.ln = x.clock.ln) (hpq : c.pq = x.clock.pq) (k : Nat) :
    tickOf now { x with clock := c } k = { tickOf now x k with clock := { c with k := k } } := by
  have hfound (y : Lane) : drainFound { x with clock := c } { y with clock := { c with k := k } } = drainFound x y := rfl
  rw [tickOf_taken, tickOf_taken, takenAt_clock now hpq, hfound]
  dsimp only
  rw [hln]

/-! ### The clock's own steps -/

theorem clockWork_clock (y : Lane) {f : Clock → Clock} (hf : ∀ c, (f c).k = c.k ∨ (f c).k ≤ 15) :
    Lane.ClockWork (fun x => { x with clock := f x.clock }) y where
  commutes _ _ _ _ := rfl
  objects := rfl
  firings := rfl
  valves := rfl
  kept x := (hf x.clock).elim (fun h => Lane.kept_clock x h) fun h => Lane.kept_clock_tick x h

theorem State.Ran.modClock {s t : State} {l : LaneId} {y : Lane} {recs : List Record} (h : s.Ran t l y recs) {f : Clock → Clock}
    (hf : ∀ c, (f c).k = c.k ∨ (f c).k ≤ 15) : s.Ran (t.modClock l f) l { y with clock := f y.clock } recs :=
  h.modLane (clockWork_clock y hf)

/-- A new line and its tick 0 (R111, R112, R117, R118). -/
theorem State.Ran.beginLine {s t : State} {l : LaneId} {y : Lane} {recs : List Record} (h : s.Ran t l y recs) (stamp : Nat) :
    s.Ran (t.beginLine l stamp) l (tickOf s.now { y with clock := y.clock.newLine stamp } 0) recs :=
  (h.modClock (f := fun c => c.newLine stamp) fun _ => .inr (Nat.zero_le _)).takeTick (Nat.zero_le _)

theorem State.Ran.recordClock {s t : State} {l : LaneId} {y : Lane} {recs : List Record} (h : s.Ran t l y recs) (e : ClockState)
    (k : Option LockKind) (n : Nat) :
    s.Ran (t.recordClock l e k n) l y (recs ++ [.clockEvent l e k n y.clock.ln y.clock.period]) := by
  rw [← h.clock]
  exact h.record _

theorem State.Ran.start (s : State) (l : LaneId) : s.Ran s l (s.lane l) [] := .inl (apply_unchanged s l).symm

theorem tickOf_jitter (now : Nat) (x : Lane) (k : Nat) :
    (tickOf now x k).counters.jitter = x.counters.jitter ∧ (tickOf now x k).counters.coastEpisodes = x.counters.coastEpisodes := by
  have hfold (fs : List Firing) (y : Lane) : (fs.foldl (dueTaken now) y).counters.jitter = y.counters.jitter ∧
      (fs.foldl (dueTaken now) y).counters.coastEpisodes = y.counters.coastEpisodes := by
    induction fs generalizing y with
    | nil => exact ⟨rfl, rfl⟩
    | cons f fs ih =>
      have hone : (dueTaken now y f).counters.jitter = y.counters.jitter ∧
          (dueTaken now y f).counters.coastEpisodes = y.counters.coastEpisodes := by
        unfold dueTaken
        dsimp only
        split <;> exact ⟨rfl, rfl⟩
      exact ⟨(ih _).1.trans hone.1, (ih _).2.trans hone.2⟩
  exact hfold _ _

theorem ticksOf_jitter (now : Nat) (ks : List Nat) (x : Lane) :
    (ticksOf now ks x).counters.jitter = x.counters.jitter ∧ (ticksOf now ks x).counters.coastEpisodes = x.counters.coastEpisodes := by
  induction ks generalizing x with
  | nil => exact ⟨rfl, rfl⟩
  | cons k ks ih => exact ⟨(ih _).1.trans (tickOf_jitter now x k).1, (ih _).2.trans (tickOf_jitter now x k).2⟩

theorem ticksOf_mode (now : Nat) (ks : List Nat) (x : Lane) : (ticksOf now ks x).mode = x.mode := by
  induction ks generalizing x with
  | nil => rfl
  | cons k ks ih => exact (ih _).trans (by rw [tickOf_same])

/-- Ticks leave the clock but for k. -/
theorem ticksOf_clock (now : Nat) (ks : List Nat) (x : Lane) :
    (ticksOf now ks x).clock = { x.clock with k := (ticksOf now ks x).clock.k } := by
  induction ks generalizing x with
  | nil => rfl
  | cons k ks ih =>
    have htick : (tickOf now x k).clock = { x.clock with k := k } := by rw [tickOf_same]
    have hlater := ih (tickOf now x k)
    rw [htick] at hlater
    exact hlater

/-! ### The first edge -/

theorem reachIntake_counts {v : State} (hslot : v.cmu.slot = none) (l : LaneId) :
    ((v.reachIntake l).lane l).counters.jitter = (v.lane l).counters.jitter ∧
      ((v.reachIntake l).lane l).counters.coastEpisodes = (v.lane l).counters.coastEpisodes ∧
      v.rwu.queue <+: (v.reachIntake l).rwu.queue := by
  have huslot : (v.intakeLineStart l).cmu.slot = none := (worked_intakeLineStart v (Set.mem_singleton l)).slot.trans hslot
  obtain ⟨hrwu, -, hlane, -⟩ := endIntake_shape huslot (l := l) (y := v.lane l) rfl rfl
  obtain ⟨-, -, -, hjitter, hepisodes⟩ := intakeLineStart_lane v l
  obtain ⟨hqueue, -⟩ := intakeLineStart_rwu v l
  rw [State.reachIntake, hlane, evaluated_counters, hrwu]
  refine ⟨hjitter, hepisodes, ?_⟩
  split
  · exact hqueue.trans (by rw [State.takeSnapshot]; dsimp only; rw [setReport_queue])
  · exact hqueue

/-- A record that finds room is the next in the queue. -/
theorem queue_of_enqueue {w : Rwu} (h : w.queue.length < 24) {r : Record} {q : List QueuedRecord} (hq : (w.enqueue r).queue <+: q) :
    ∃ more, q = w.queue ++ ⟨r, w.dropCount⟩ :: more := by
  rw [(enqueue_of_room h r).1] at hq
  obtain ⟨more, hmore⟩ := hq
  exact ⟨more, by rw [← hmore, List.append_assoc]; rfl⟩

/-- A step of the clock that leaves LN, k and Pq can be taken before the tick as well as after it. -/
theorem tickOf_then_clock (now : Nat) (x : Lane) (k : Nat) {f : Clock → Clock} (hln : ∀ c, (f c).ln = c.ln)
    (hpq : ∀ c, (f c).pq = c.pq) (hk : ∀ c : Clock, f { c with k := k } = { f c with k := k }) :
    ({ tickOf now x k with clock := f (tickOf now x k).clock } : Lane) = tickOf now { x with clock := f x.clock } k := by
  have hclock : (tickOf now x k).clock = { x.clock with k := k } := by rw [tickOf_same]
  rw [tickOf_clock now (hln _) (hpq _), hclock, hk]

/-- A line start with its tick 0, and the clock's step that is taken with it. -/
theorem State.Ran.newLine {s t : State} {l : LaneId} {y : Lane} {recs : List Record} (h : s.Ran t l y recs) (stamp : Nat)
    {f : Clock → Clock} (hln : ∀ c, (f c).ln = c.ln) (hpq : ∀ c, (f c).pq = c.pq)
    (hk : ∀ c : Clock, f { c with k := 0 } = { f c with k := 0 }) (hkeeps : ∀ c, (f c).k = c.k) :
    s.Ran ((t.beginLine l stamp).modClock l f) l (tickOf s.now { y with clock := f (y.clock.newLine stamp) } 0) recs :=
  Eq.mp (congrArg (fun z => s.Ran ((t.beginLine l stamp).modClock l f) l z recs)
    (tickOf_then_clock s.now { y with clock := y.clock.newLine stamp } 0 hln hpq hk))
    ((h.beginLine stamp).modClock (f := f) fun c => .inl (hkeeps c))

theorem beginLine_rwu (s : State) (l : LaneId) (n : Nat) : (s.beginLine l n).rwu = s.rwu := by
  rw [State.beginLine, takeTick_eq_setLane, setLane_rwu]
  exact modLane_rwu _ _ _

theorem modClock_rwu (s : State) (l : LaneId) (f : Clock → Clock) : (s.modClock l f).rwu = s.rwu := modLane_rwu _ _ _

theorem tickOf_zero_clock (now : Nat) (x : Lane) (c : Clock) (h : c.k = 0) : (tickOf now { x with clock := c } 0).clock = c := by
  rw [tickOf_same]
  dsimp only
  rw [← h]

theorem passed_now (s : State) (n : Nat) : (s.pass n).now = s.now + n := rfl

/-- The first edge: the line start, its record, the LIU (R111). -/
theorem firstEdge_starts {s : State} {n : Nat} {l : LaneId} {d : Clock} (hslot : s.cmu.slot = none)
    (hroom : s.rwu.queue.length < 24) (hd : d = ((s.lane l).clock.newLine (s.now + n)).lock (s.now + n)) :
    ∃ t more, t = (s.pass n).firstEdge l ∧ (t.lane l).clock = d ∧
      t.rwu.queue = s.rwu.queue ++ ⟨.clockEvent l .locked (some .first) 0 d.ln d.period, s.rwu.dropCount⟩ :: more ∧
      lineStarted s t n l (tickOf (s.now + n) { s.lane l with clock := d } 0)
        [.clockEvent l .locked (some .first) 0 d.ln d.period] := by
  obtain ⟨y, hy⟩ : ∃ y, y = tickOf (s.now + n) { s.lane l with clock := d } 0 := ⟨_, rfl⟩
  obtain ⟨v, hv⟩ : ∃ v, v = (((s.pass n).beginLine l (s.now + n)).modClock l fun c => c.lock (s.now + n)) := ⟨_, rfl⟩
  have hclock : y.clock = d := by rw [hy, tickOf_zero_clock _ _ _ (by rw [hd]; rfl)]
  have hmode : y.mode = (s.lane l).mode := by rw [hy, tickOf_same]
  have hran : (s.pass n).Ran v l y [] := by
    have hsteps := (State.Ran.start (s.pass n) l).newLine (s.now + n) (f := fun c => c.lock (s.now + n)) (fun _ => rfl)
      (fun _ => rfl) (fun _ => rfl) fun _ => rfl
    rw [← hv, pass_lane] at hsteps
    rw [hy, hd]
    exact hsteps
  have hrecord := hran.recordClock .locked (some .first) 0
  rw [hclock] at hrecord
  have hpassed : (s.pass n).cmu.slot = none := hslot
  have hrslot := hrecord.slot hpassed
  obtain ⟨-, -, hqueue⟩ := reachIntake_counts hrslot l
  have hrwu : (v.recordClock l .locked (some .first) 0).rwu = s.rwu.enqueue (.clockEvent l .locked (some .first) 0 d.ln d.period) := by
    have hsame : v.rwu = s.rwu := by rw [hv, modClock_rwu, beginLine_rwu]; rfl
    rw [State.recordClock, record_rwu, hran.clock, hclock, hsame]
  rw [hrwu] at hqueue
  obtain ⟨more, hmore⟩ := queue_of_enqueue hroom hqueue
  have hfirst : (s.pass n).firstEdge l = (v.recordClock l .locked (some .first) 0).reachIntake l := by
    rw [hv]
    rfl
  refine ⟨_, more, hfirst.symm, ?_, hmore, hy ▸ lineStarted_of_ran hslot hrecord hmode⟩
  rw [(reachIntake_keeps hrslot l).2, hrecord.clock, hclock]

/-- What the distance of an accepted edge does to the lane, within the band or below it (R113). -/
theorem measureEdge_eq {x : Lane} {m : Nat} (hhigh : m ≤ 9 * (x.clock.pq / 16) / 8) :
    x.measureEdge m =
      { x with
        clock :=
          { x.clock with
            pq := if m < 7 * (x.clock.pq / 16) / 8 then x.clock.pq
              else (max 40000 (min 800000 ((x.clock.pq : Int) + (16 * (m : Int) - (x.clock.pq : Int)) / 8))).toNat }
        counters :=
          { x.counters with jitter := if m < 7 * (x.clock.pq / 16) / 8 then x.counters.jitter + 1 else x.counters.jitter } } := by
  unfold Lane.measureEdge
  dsimp only [Clock.period]
  by_cases hearly : m < 7 * (x.clock.pq / 16) / 8
  · rw [if_pos hearly, if_pos hearly, if_pos hearly]
    rfl
  · rw [if_neg hearly, if_pos hhigh, if_neg hearly, if_neg hearly]
    rfl

theorem clockWork_measureEdge (y : Lane) (m : Nat) : Lane.ClockWork (fun x => x.measureEdge m) y where
  commutes _ _ _ _ := by
    unfold Lane.measureEdge
    dsimp only
    split
    · rfl
    · split <;> rfl
  objects := by
    unfold Lane.measureEdge
    dsimp only
    split
    · rfl
    · split <;> rfl
  firings := by
    unfold Lane.measureEdge
    dsimp only
    split
    · rfl
    · split <;> rfl
  valves := by
    unfold Lane.measureEdge
    dsimp only
    split
    · rfl
    · split <;> rfl
  kept x := Lane.kept_measureEdge x m

/-- A settled part has no drain condition found. -/
theorem drainDue_of_settled {s : State} (hs : s.Settled) (l : LaneId) (hdrain : (s.lane l).mode = .drain) :
    (s.lane l).drainDue = false := by
  obtain ⟨-, hsame, -⟩ := settle_parts hs
  by_contra hdue
  have hlane := settleDrain_lane s l
  rw [hsame l, if_pos ⟨hdrain, by simpa using hdue⟩] at hlane
  have hmode := congrArg Lane.mode hlane
  rw [hdrain] at hmode
  cases hmode

/-- The ticks left of a line at an event of a settled part. -/
theorem ran_remainingTicks_of_settled {s : State} (hs : s.Settled) (n : Nat) (l : LaneId) :
    (s.pass n).Ran ((s.pass n).remainingTicks l) l (ticksOf (s.now + n) (ticksLeft (s.lane l).clock 15) (s.lane l)) [] := by
  have hticks := ran_remainingTicks (s := s.pass n) (l := l) (by rw [pass_lane]; exact (settle_parts hs).2.2 l)
    (by rw [pass_lane]; exact drainDue_of_settled hs l)
  rw [pass_lane] at hticks
  exact hticks

/-- An accepted edge in LOCKED: the ticks that are left, the distance, the line start, the LIU (R112, R113). -/
theorem lockedEdge_starts {s : State} {n m : Nat} {l : LaneId} {old : Lane} {d : Clock} (hs : s.Settled) (hslot : s.cmu.slot = none)
    (hm : m = s.now + n - (s.lane l).clock.lineStart)
    (hold : old = (ticksOf (s.now + n) (ticksLeft (s.lane l).clock 15) (s.lane l)).measureEdge m)
    (hd : d = { old.clock.newLine (s.now + n) with coastDeadline := some ((old.clock.newLine (s.now + n)).deadlineAfter (s.now + n)) }) :
    (((s.pass n).lockedEdge l).lane l).clock = d ∧ (((s.pass n).lockedEdge l).lane l).counters.jitter = old.counters.jitter ∧
      lineStarted s ((s.pass n).lockedEdge l) n l (tickOf (s.now + n) { old with clock := d } 0) [] := by
  obtain ⟨y, hy⟩ : ∃ y, y = tickOf (s.now + n) { old with clock := d } 0 := ⟨_, rfl⟩
  have hclock : y.clock = d := by rw [hy, tickOf_zero_clock _ _ _ (by rw [hd]; rfl)]
  have hmode : y.mode = (s.lane l).mode := by
    rw [hy, tickOf_same, hold, (measureEdge_keeps _ m).1, ticksOf_mode]
  have hran := ((ran_remainingTicks_of_settled hs n l).modLane (clockWork_measureEdge _ m)).newLine (s.now + n)
    (f := fun c => { c with coastDeadline := some (c.deadlineAfter (s.now + n)) }) (fun _ => rfl) (fun _ => rfl) (fun _ => rfl)
    fun _ => rfl
  rw [← hold, ← hd, passed_now, ← hy] at hran
  have hpassed : (s.pass n).cmu.slot = none := hslot
  have hedge : (s.pass n).lockedEdge l =
      ((((((s.pass n).remainingTicks l).modLane l fun x => x.measureEdge m).beginLine l (s.now + n)).modClock l fun c =>
        { c with coastDeadline := some (c.deadlineAfter (s.now + n)) })).reachIntake l := by
    rw [State.lockedEdge, pass_lane, hm]
    rfl
  have hslots := hran.slot hpassed
  obtain ⟨hjitter, -, -⟩ := reachIntake_counts hslots l
  rw [hedge, ← hy]
  refine ⟨?_, ?_, lineStarted_of_ran hslot hran hmode⟩
  · rw [(reachIntake_keeps hslots l).2, hran.clock, hclock]
  · rw [hjitter, hran.counters, hy]
    exact (tickOf_jitter _ _ _).1

/-- Settles O43: the first edge, and an accepted edge in LOCKED with its distance measured on the old line. -/
theorem acceptedEdgesStartLines : Obligations.AcceptedEdgesStartLines := by
  refine ⟨fun s n l c d hs hslot hroom hc hwaiting hd => ?_, fun s n l c d m pq old hs hslot hc hlocked hk hm hlow hhigh hpq hold hd => ?_⟩
  · obtain ⟨t, more, ht, hclock, hqueue, hstarted⟩ := firstEdge_starts (n := n) (l := l) (d := d) hslot hroom (by rw [hd, hc]; rfl)
    refine ⟨t, more, ?_, hclock, ?_, ?_⟩
    · rw [exec_triggerEdge hs, ht]
      simp only [State.edge, pass_lane, hc, hwaiting]
    · rw [hqueue, hd]
      rfl
    · rw [hd] at hstarted ⊢
      exact hstarted
  · obtain ⟨ticked, hticked⟩ : ∃ x, x = ticksOf (s.now + n) (ticksLeft c 15) (s.lane l) := ⟨_, rfl⟩
    have hclock : ticked.clock = { c with k := ticked.clock.k } := by rw [hticked, ticksOf_clock, hc]
    have hmeasured : old.measureEdge m =
        { old with
          clock := { c with k := old.clock.k, pq := pq }
          counters :=
            { old.counters with
              jitter := if m < 7 * (c.pq / 16) / 8 then old.counters.jitter + 1 else old.counters.jitter } } := by
      rw [hold, ← hticked, measureEdge_eq (by rw [hclock]; exact hhigh), hclock, hpq]
    obtain ⟨hend, hjitter, hstarted⟩ := lockedEdge_starts (n := n) (m := m) (l := l) (old := old.measureEdge m) (d := d) hs hslot
      (by rw [hc]; exact hm) (by rw [hold, hc]) (by rw [hd, hmeasured]; rfl)
    rw [hmeasured] at hjitter hstarted
    refine ⟨(s.pass n).lockedEdge l, ?_, hend, ?_, hstarted⟩
    · have hfar : c.isGlitch (s.pass n).now = false := by
        have hclocks : Config.glitchClocks = 2500 := rfl
        rw [Clock.isGlitch, decide_eq_false_iff_not, hclocks, passed_now, ← hm]
        omega
      rw [exec_triggerEdge hs]
      simp only [State.edge, pass_lane, hc, hlocked, hfar, Bool.false_eq_true, if_false]
    · rw [hjitter, hold, (ticksOf_jitter _ _ _).1]

/-! ### Edges in COASTING -/

/-- The record made after the clock's steps is the next in the queue, after those of a HOLD entry, if there was one. -/
theorem State.Ran.record_queue {s v : State} {l : LaneId} {y : Lane} (h : s.Ran v l y []) {r : Record} {q : List QueuedRecord}
    (hq : (v.rwu.enqueue r).queue <+: q) :
    ((s.lane l).mode ≠ .drain → s.rwu.queue.length < 24 → ∃ more, q = s.rwu.queue ++ ⟨r, s.rwu.dropCount⟩ :: more) ∧
      (s.rwu.queue.length + 3 ≤ 24 → ∃ drained drops more, q = s.rwu.queue ++ drained ++ ⟨r, drops⟩ :: more) := by
  obtain hv | hheld := h
  · have hrwu : v.rwu = s.rwu := by rw [hv, apply_rwu]; rfl
    rw [hrwu] at hq
    refine ⟨fun _ hroom => queue_of_enqueue hroom hq, fun hroom => ?_⟩
    obtain ⟨more, hmore⟩ := queue_of_enqueue (by omega) hq
    exact ⟨[], _, more, by rw [hmore, List.append_nil]⟩
  · refine ⟨fun hnot => absurd hheld.drain hnot, fun hroom => ?_⟩
    obtain ⟨w, drained, hfew, hqueue, hrwu⟩ := hheld.records
    obtain rfl : v.rwu = w := hrwu
    obtain ⟨more, hmore⟩ := queue_of_enqueue (by rw [hqueue, List.length_append]; omega) hq
    exact ⟨drained, _, more, by rw [hmore, hqueue]⟩

/-- An accepted edge in COASTING that starts a new line (R118). -/
theorem relockNewLine_starts {s : State} {n : Nat} {l : LaneId} {old : Lane} {d : Clock} {r : Record} (hs : s.Settled)
    (hslot : s.cmu.slot = none) (hold : old = ticksOf (s.now + n) (ticksLeft (s.lane l).clock 15) (s.lane l))
    (hd : d = (old.clock.newLine (s.now + n)).lock (s.now + n))
    (hr : r = .clockEvent l .locked (some .newLine) (s.lane l).clock.episode d.ln d.period) :
    (((s.pass n).relockNewLine l).lane l).clock = d ∧
      lineStarted s ((s.pass n).relockNewLine l) n l (tickOf (s.now + n) { old with clock := d } 0) [r] ∧
      ((s.lane l).mode ≠ .drain → s.rwu.queue.length < 24 →
        ∃ more, ((s.pass n).relockNewLine l).rwu.queue = s.rwu.queue ++ ⟨r, s.rwu.dropCount⟩ :: more) ∧
      (s.rwu.queue.length + 3 ≤ 24 →
        ∃ drained drops more, ((s.pass n).relockNewLine l).rwu.queue = s.rwu.queue ++ drained ++ ⟨r, drops⟩ :: more) := by
  obtain ⟨y, hy⟩ : ∃ y, y = tickOf (s.now + n) { old with clock := d } 0 := ⟨_, rfl⟩
  obtain ⟨v, hv⟩ : ∃ v, v = ((((s.pass n).remainingTicks l).beginLine l (s.now + n)).modClock l fun c => c.lock (s.now + n)) :=
    ⟨_, rfl⟩
  have hclock : y.clock = d := by rw [hy, tickOf_zero_clock _ _ _ (by rw [hd]; rfl)]
  have hmode : y.mode = (s.lane l).mode := by rw [hy, tickOf_same, hold, ticksOf_mode]
  have hran : (s.pass n).Ran v l y [] := by
    have hsteps := (ran_remainingTicks_of_settled hs n l).newLine (s.now + n) (f := fun c => c.lock (s.now + n)) (fun _ => rfl)
      (fun _ => rfl) (fun _ => rfl) fun _ => rfl
    rwa [← hold, ← hd, passed_now, ← hy, ← hv] at hsteps
  have hrecord := hran.recordClock .locked (some .newLine) (s.lane l).clock.episode
  rw [hclock, ← hr, List.nil_append] at hrecord
  have hpassed : (s.pass n).cmu.slot = none := hslot
  have hslots := hrecord.slot hpassed
  have hedge : (s.pass n).relockNewLine l = (v.recordClock l .locked (some .newLine) (s.lane l).clock.episode).reachIntake l := by
    rw [State.relockNewLine, pass_lane, hv]
    rfl
  obtain ⟨-, -, hqueue⟩ := reachIntake_counts hslots l
  have hrwu : (v.recordClock l .locked (some .newLine) (s.lane l).clock.episode).rwu = v.rwu.enqueue r := by
    rw [State.recordClock, record_rwu, hran.clock, hclock, hr]
  rw [hrwu] at hqueue
  rw [hedge, ← hy]
  refine ⟨?_, lineStarted_of_ran hslot hrecord hmode, ?_⟩
  · rw [(reachIntake_keeps hslots l).2, hrecord.clock, hclock]
  · have hqueues := hran.record_queue hqueue
    rw [pass_lane] at hqueues
    exact hqueues

/-- Settles O45: half a period decides between the re-anchored line and a new one. -/
theorem coastingEdgeRelocks : Obligations.CoastingEdgeRelocks := by
  intro s n l c e d hs hslot hc hcoasting hd hfar he
  have hdistance : (s.pass n).now - c.lineStart = d := by rw [passed_now]; omega
  have hglitch : c.isGlitch (s.pass n).now = false := by
    have hclocks : Config.glitchClocks = 2500 := rfl
    rw [Clock.isGlitch, decide_eq_false_iff_not, hdistance, hclocks]
    omega
  have hedge : (s.pass n).edge l = if c.pq / 16 / 2 ≤ d then (s.pass n).relockNewLine l else (s.pass n).reAnchor l := by
    simp only [State.edge, pass_lane, hc, hcoasting, hglitch, Bool.false_eq_true, if_false, hdistance, Clock.period]
  refine ⟨fun hnear => ?_, fun hnew => ?_⟩
  · rw [exec_triggerEdge hs, hedge, if_neg (by omega), State.reAnchor, State.recordClock, State.modClock, lane_modLane_self, pass_lane, hc]
    have hlane : ((s.pass n).modLane l fun x => { x with clock := { x.clock.lock (s.pass n).now with lineStart := (s.pass n).now } }) =
        (s.pass n).modLane l fun x =>
          { x with
            clock :=
              { c with
                state := .locked, lineStart := s.now + n, nextSynthetic := none, episode := 0
                coastDeadline := some (s.now + n + 9 * (c.pq / 16) / 8) } } :=
      modLane_congr (by rw [pass_lane, hc]; rfl)
    rw [hlane]
    rfl
  · obtain ⟨old, hold⟩ : ∃ old, old = ticksOf (s.now + n) (ticksLeft c 15) (s.lane l) := ⟨_, rfl⟩
    have hclock : old.clock = { c with k := old.clock.k } := by rw [hold, ticksOf_clock, hc]
    have hd' : e = (old.clock.newLine (s.now + n)).lock (s.now + n) := by rw [he, hclock]; rfl
    obtain ⟨hend, hstarted, hqueue, hdrained⟩ := relockNewLine_starts (n := n) (l := l) (old := old) (d := e)
      (r := .clockEvent l .locked (some .newLine) c.episode (c.ln + 1) (c.pq / 16)) hs hslot (by rw [hold, hc]) hd'
      (by rw [hc, he]; rfl)
    rw [← hold]
    exact ⟨_, by rw [exec_triggerEdge hs, hedge, if_pos hnew], hend, hstarted, hqueue, fun _ => hdrained⟩

end Sys2Proof.Machine

/-! ## Proofs: synthetic lines and the loss of the clock (O47, O48) -/
namespace Sys2Proof.Machine

/-! ### The ticks a synthetic line has reached -/

/-- Ticks that have fallen due are taken in order, and once one has not, no later one has (R117). -/
theorem State.Ran.reachedTicks {s t : State} {l : LaneId} {y : Lane} {recs : List Record} (h : s.Ran t l y recs)
    (hticking : y.clock.state.ticking = true) {n : Nat} (hn : y.clock.k + n = 15) :
    s.Ran (t.reachedTicks l n) l
      (ticksOf s.now ((List.range' (y.clock.k + 1) n).filter fun k => decide (y.clock.lineStart + k * y.clock.pq / 256 ≤ s.now)) y)
      recs := by
  induction n generalizing t y with
  | zero => exact h
  | succ n ih =>
    have hdue : (t.lane l).clock.tickDue t.now = decide (y.clock.lineStart + (y.clock.k + 1) * y.clock.pq / 256 ≤ s.now) := by
      rw [h.clock, h.now, Clock.tickDue, hticking, decide_eq_true (by omega : y.clock.k < 15)]
      rfl
    rw [State.reachedTicks, List.range'_succ, List.filter_cons, hdue, h.clock]
    by_cases hreached : y.clock.lineStart + (y.clock.k + 1) * y.clock.pq / 256 ≤ s.now
    · have htick := h.takeTick (k := y.clock.k + 1) (by omega)
      have hclock : (tickOf s.now y (y.clock.k + 1)).clock = { y.clock with k := y.clock.k + 1 } := by rw [tickOf_same]
      have hlater := ih htick (by rw [hclock]; exact hticking) (by rw [hclock]; dsimp only; omega)
      rw [hclock] at hlater
      rw [decide_eq_true hreached, if_pos rfl, if_pos rfl]
      exact hlater
    · have hnone : ((List.range' (y.clock.k + 1 + 1) n).filter fun k =>
          decide (y.clock.lineStart + k * y.clock.pq / 256 ≤ s.now)) = [] := by
        refine List.filter_eq_nil_iff.2 fun k hk => ?_
        rw [decide_eq_true_eq, not_le]
        have hlow := (List.mem_range'_1.1 hk).1
        have hmul := Nat.mul_le_mul_right y.clock.pq (show y.clock.k + 1 ≤ k by omega)
        have hdiv := Nat.div_le_div_right (c := 256) hmul
        omega
      rw [decide_eq_false hreached, if_neg Bool.false_ne_true, if_neg Bool.false_ne_true, hnone]
      exact h

theorem ticksReached_eq (stamp pq now : Nat) :
    ticksReached stamp pq now = 0 :: (List.range' 1 15).filter fun k => decide (stamp + k * pq / 256 ≤ now) := by
  have hrange : List.range 16 = 0 :: List.range' 1 15 := by decide
  rw [ticksReached, hrange, List.filter_cons, if_neg (by simp)]
  congr 1
  refine List.filter_congr fun k hk => ?_
  have hlow := (List.mem_range'_1.1 hk).1
  by_cases hreached : stamp + k * pq / 256 ≤ now
  · rw [decide_eq_true hreached, decide_eq_true ⟨by omega, hreached⟩]
  · rw [decide_eq_false hreached, decide_eq_false fun h => hreached h.2]

/-! ### A synthetic line start -/

/-- The clock after a synthetic line start, but for the ticks it has taken (R117). -/
theorem syntheticLine_clock (now stamp : Nat) (x : Lane) :
    (syntheticLine now stamp x).clock =
      { x.clock with
        ln := x.clock.ln + 1, k := (syntheticLine now stamp x).clock.k, lineStart := stamp, episode := x.clock.episode + 1
        nextSynthetic := some (stamp + x.clock.pq / 16) } := by
  unfold syntheticLine
  dsimp only
  rw [ticksOf_clock]

theorem syntheticLine_mode (now stamp : Nat) (x : Lane) :
    (syntheticLine now stamp x).mode = x.mode ∧ (syntheticLine now stamp x).counters.coastEpisodes = x.counters.coastEpisodes := by
  unfold syntheticLine
  dsimp only
  rw [ticksOf_mode, (ticksOf_jitter _ _ _).2]
  exact ⟨ticksOf_mode _ _ _, (ticksOf_jitter _ _ _).2⟩

/-- The clock's steps of a synthetic line start from a part that owes nothing (R117). -/
theorem ran_syntheticStart {s : State} {l : LaneId} (hwait : (s.lane l).mode.sorting = false → s.swapWaiting l = false)
    (hdue : (s.lane l).mode = .drain → (s.lane l).drainDue = false) (hcoasting : (s.lane l).clock.state = .coasting) (stamp : Nat) :
    ∃ v, s.syntheticStart l stamp = v.reachIntake l ∧ s.Ran v l (syntheticLine s.now stamp (s.lane l)) [] := by
  obtain ⟨x, hx⟩ : ∃ x, x = s.lane l := ⟨_, rfl⟩
  obtain ⟨old, hold⟩ : ∃ old, old = ticksOf s.now (ticksLeft x.clock 15) x := ⟨_, rfl⟩
  obtain ⟨y, hy⟩ : ∃ y, y = tickOf s.now { old with clock := old.clock.newLine stamp } 0 := ⟨_, rfl⟩
  have hclock : y.clock = { x.clock with ln := x.clock.ln + 1, k := 0, lineStart := stamp } := by
    rw [hy, tickOf_zero_clock _ _ _ rfl, hold, Clock.newLine, ticksOf_clock]
  have hran := ((ran_remainingTicks hwait hdue).beginLine stamp)
  rw [← hx, ← hold, ← hy] at hran
  have hreached := hran.reachedTicks (n := 15) (by rw [hclock, hx]; dsimp only; rw [hcoasting]; rfl) (by rw [hclock])
  obtain ⟨z, hz⟩ : ∃ z, z = ticksOf s.now
    ((List.range' (y.clock.k + 1) 15).filter fun k => decide (y.clock.lineStart + k * y.clock.pq / 256 ≤ s.now)) y := ⟨_, rfl⟩
  rw [← hz] at hreached
  have hdone := hreached.modClock (f := fun c => { c with episode := c.episode + 1, nextSynthetic := some (stamp + c.period) })
    fun _ => .inl rfl
  have hzclock : z.clock = { x.clock with ln := x.clock.ln + 1, k := z.clock.k, lineStart := stamp } := by
    rw [hz, ticksOf_clock, hclock]
  have hline : syntheticLine s.now stamp x =
      { z with clock := { z.clock with episode := x.clock.episode + 1, nextSynthetic := some (stamp + x.clock.pq / 16) } } := by
    have hticked : old.clock.newLine stamp = { x.clock with ln := x.clock.ln + 1, k := 0, lineStart := stamp } := by
      rw [hold, Clock.newLine, ticksOf_clock]
    rw [syntheticLine, ticksReached_eq, ← hold, hz, hclock, hy, hticked]
    rfl
  refine ⟨_, rfl, ?_⟩
  have hend : syntheticLine s.now stamp x =
      { z with clock := { z.clock with episode := z.clock.episode + 1, nextSynthetic := some (stamp + z.clock.period) } } := by
    rw [hline, hzclock]
    rfl
  rw [← hx, hend]
  exact hdone

/-- A synthetic line start of a part that owes nothing, with what the lane's clock then is (R117). -/
theorem syntheticStart_starts {s base : State} {n stamp : Nat} {l : LaneId} {x : Lane} {first : List Record}
    (hslot : s.cmu.slot = none) (hbase : base = (s.pass n).apply l (x, first)) (hmode : x.mode = (s.lane l).mode)
    (hwait : x.mode.sorting = false → s.swapWaiting l = false) (hdue : x.mode = .drain → x.drainDue = false)
    (hcoasting : x.clock.state = .coasting) :
    ((base.syntheticStart l stamp).lane l).clock = (syntheticLine (s.now + n) stamp x).clock ∧
      ((base.syntheticStart l stamp).lane l).counters.coastEpisodes = x.counters.coastEpisodes ∧
      base.rwu.queue <+: (base.syntheticStart l stamp).rwu.queue ∧
      lineStarted s (base.syntheticStart l stamp) n l (syntheticLine (s.now + n) stamp x) first := by
  have hlane : base.lane l = x := by rw [hbase, apply_lane_self]
  have hrtu : base.rtu = s.rtu := by rw [hbase, apply_rtu]; rfl
  have hnow : base.now = s.now + n := by rw [hbase, (samePath_apply _ _ _).now]; rfl
  have hbaseslot : base.cmu.slot = none := by rw [hbase, apply_cmu]; exact hslot
  obtain ⟨v, hv, hran⟩ := ran_syntheticStart (s := base) (l := l) (by rw [hlane, swapWaiting_congr hrtu]; exact hwait)
    (by rw [hlane]; exact hdue) (by rw [hlane]; exact hcoasting) stamp
  rw [hlane, hnow] at hran
  obtain ⟨hlinemode, hepisodes⟩ := syntheticLine_mode (s.now + n) stamp x
  have hslots := hran.slot hbaseslot
  obtain ⟨-, hcount, hqueue⟩ := reachIntake_counts hslots l
  have hstarted := lineStarted_of_ran_after hslot hbase hmode hran (hlinemode.trans hmode)
  rw [List.append_nil] at hstarted
  rw [hv]
  refine ⟨?_, ?_, hran.queue.trans hqueue, hstarted⟩
  · rw [(reachIntake_keeps hslots l).2, hran.clock]
  · rw [hcount, hran.counters, hepisodes]

/-- Settles O47: the deadline enters COASTING, and the rest is its first synthetic line. -/
theorem coastDeadlineBeginsEpisode : Obligations.CoastDeadlineBeginsEpisode := by
  intro s n l c due x hs hslot hroom hc hlocked hdue hreached hx
  obtain ⟨r, hr⟩ : ∃ r, r = Record.clockEvent l .coasting none 0 (c.ln + 1) (c.pq / 16) := ⟨_, rfl⟩
  obtain ⟨base, hbase⟩ : ∃ base, base = (s.pass n).apply l (x, [r]) := ⟨_, rfl⟩
  have hfalls : (s.pass n).deadlineFalls l = base.syntheticStart l (c.lineStart + c.pq / 16) := by
    have hdeadline : reached c.coastDeadline (s.pass n).now = true := by
      rw [hdue]
      exact decide_eq_true hreached
    have henter : (s.lane l).enterCoasting = x := by rw [hx, Lane.enterCoasting, hc]
    unfold State.deadlineFalls
    dsimp only
    rw [pass_lane, hc, if_pos ⟨hlocked, hdeadline⟩, State.coast, pass_lane, hc, hbase, ← henter, hr, ← pass_lane s n]
    rfl
  have hmode : x.mode = (s.lane l).mode := by rw [hx]
  obtain ⟨hclock, hepisodes, hqueue, hstarted⟩ := syntheticStart_starts (n := n) (stamp := c.lineStart + c.pq / 16) (first := [r])
    hslot hbase hmode (by rw [hmode]; exact (settle_parts hs).2.2 l) (by rw [hx]; exact drainDue_of_settled hs l) (by rw [hx])
  have hline := syntheticLine_clock (s.now + n) (c.lineStart + c.pq / 16) x
  have hrwu : base.rwu = s.rwu.enqueue r := by rw [hbase, apply_rwu]; rfl
  rw [hrwu] at hqueue
  obtain ⟨more, hmore⟩ := queue_of_enqueue hroom hqueue
  have hexec : exec (.coastDeadline n l) s = .next (base.syntheticStart l (c.lineStart + c.pq / 16)) := by
    show Host.Outcome.next ((s.begin n).deadlineFalls l) = _
    rw [begin_of_settled hs n, hfalls]
  have hfields : (syntheticLine (s.now + n) (c.lineStart + c.pq / 16) x).clock =
      { c with
        state := .coasting, coastDeadline := none, ln := c.ln + 1
        k := (syntheticLine (s.now + n) (c.lineStart + c.pq / 16) x).clock.k, lineStart := c.lineStart + c.pq / 16, episode := 1
        nextSynthetic := some (c.lineStart + c.pq / 16 + c.pq / 16) } := by
    rw [hline, hx]
  rw [hr] at hmore hstarted
  refine ⟨_, more, hexec, ?_, ?_, ?_, ?_, ?_, ?_, hclock, ?_, hmore, hstarted⟩
  · rw [hclock, hfields]
  · rw [hclock, hfields]
  · rw [hclock, hfields]
  · rw [hclock, hfields]
  · rw [hclock, hfields]
  · rw [hclock, hfields]
  · rw [hepisodes, hx]

/-! ### The loss of the clock -/

/-- Settles O48: below the limit a synthetic line, from it on the loss. -/
theorem syntheticLineOrLoss : Obligations.SyntheticLineOrLoss := by
  intro s n l c stamp hs hslot hroom hc hcoasting hnext hreached
  have hexec : exec (.syntheticLineStart n l) s = .next (if (s.lane l).block.coastLimit ≤ c.episode then (s.pass n).loseClock l
      else (s.pass n).syntheticStart l stamp) := by
    show Host.Outcome.next ((s.begin n).syntheticFalls l) = _
    rw [begin_of_settled hs n]
    unfold State.syntheticFalls
    simp only [pass_lane, hc, hnext, hcoasting, true_and]
    rw [if_pos (show stamp ≤ (s.pass n).now from hreached)]
  refine ⟨fun hbelow => ?_, fun queued pendings openings hqueued hpendings hopenings hlimit => ?_⟩
  · rw [if_neg (by omega)] at hexec
    obtain ⟨hclock, -, -, hstarted⟩ := syntheticStart_starts (base := s.pass n) (n := n) (stamp := stamp) (l := l) (x := s.lane l)
      (first := []) hslot (by rw [← pass_lane s n l, apply_unchanged]) rfl ((settle_parts hs).2.2 l) (drainDue_of_settled hs l)
      (by rw [hc]; exact hcoasting)
    have hfields := syntheticLine_clock (s.now + n) stamp (s.lane l)
    rw [hc] at hfields
    refine ⟨_, hexec, ?_, ?_, ?_, ?_, ?_, ?_, hclock, hstarted⟩
    · rw [hclock, hfields]
      exact hcoasting
    · rw [hclock, hfields]
    · rw [hclock, hfields]
    · rw [hclock, hfields]
    · rw [hclock, hfields]
    · rw [hclock, hfields]
  · rw [if_pos hlimit] at hexec
    obtain ⟨x, hx⟩ : ∃ x : Lane, x = { s.lane l with clock := { c with state := .lost, nextSynthetic := none } } := ⟨_, rfl⟩
    obtain ⟨r, hr⟩ : ∃ r, r = Record.clockEvent l .lost none c.episode c.ln (c.pq / 16) := ⟨_, rfl⟩
    obtain ⟨v, hv⟩ : ∃ v, v = ((s.pass n).apply l (x, [r])).captureIfWaiting l := ⟨_, rfl⟩
    obtain ⟨y, hy⟩ : ∃ y : Lane, y = { x with mode := .fault, drainDue := false } := ⟨_, rfl⟩
    obtain ⟨u, hu⟩ : ∃ u, u = (v.setMode l .fault .clockLost 0).apply l (y.stopBlocks l (s.now + n) .clockLost) := ⟨_, rfl⟩
    have hvlane : v.lane l = x := by rw [hv, captureIfWaiting_lane, apply_lane_self]
    have hlose : (s.pass n).loseClock l = u.takeSnapshot l .modeChange := by
      have hlost : (((s.pass n).modClock l fun c => { c with state := .lost, nextSynthetic := none }).recordClock l .lost none
          c.episode) = (s.pass n).apply l (x, [r]) := by
        rw [State.recordClock, State.modClock, lane_modLane_self, pass_lane, hc, hx, hr, ← hc, ← pass_lane s n l]
        rfl
      have hepisode : ((((s.pass n).modClock l fun c => { c with state := .lost, nextSynthetic := none }).lane l).clock).episode =
          c.episode := by rw [State.modClock, lane_modLane_self, pass_lane, hc]
      have hnow : (v.setMode l .fault .clockLost 0).now = s.now + n := by
        rw [(samePath_setMode v l _ _ _).now, hv, (samePath_captureIfWaiting _ l).now, (samePath_apply _ _ _).now]
        rfl
      rw [State.loseClock]
      rw [hepisode, hlost, State.faultLane, ← hv, setMode_lane, hvlane, hnow, ← hy, ← hu]
    have hset := setMode_rest v l .fault .clockLost 0
    obtain ⟨hother, hrtu, -, hsram, hevents⟩ := hset
    have hrecords : (y.stopBlocks l (s.now + n) .clockLost).2 = if queued + pendings + openings = 0 then []
        else [.firingsCancelled l .clockLost queued pendings openings] := by
      rw [stopBlocks_records, hqueued, hpendings, hopenings, hy, hx]
      rfl
    have hreport (m : LaneId) : u.rwu.report m = s.rwu.report m := by
      rw [hu, apply_rwu, foldl_enqueue_report, setMode_rwu, enqueue_report, hv, captureIfWaiting_report, apply_rwu,
        foldl_enqueue_report]
      rfl
    have hqueue : u.rwu.queue = s.rwu.queue ++ ⟨r, s.rwu.dropCount⟩ :: ⟨.modeChange l (s.lane l).mode .fault .clockLost 0 c.ln, 0⟩ ::
        (y.stopBlocks l (s.now + n) .clockLost).2.map fun q => ⟨q, 0⟩ := by
      have hfirst := enqueue_of_room (w := s.rwu) (by omega) r
      have hcaptured : v.rwu.queue = (s.rwu.enqueue r).queue ∧ v.rwu.dropCount = (s.rwu.enqueue r).dropCount := by
        rw [hv, captureIfWaiting_queue, captureIfWaiting_dropCount, apply_rwu]
        exact ⟨rfl, rfl⟩
      rw [hfirst.1, hfirst.2] at hcaptured
      have hall := (foldl_enqueue_of_room (w := v.rwu)
        (rs := .modeChange l (s.lane l).mode .fault .clockLost 0 c.ln :: (y.stopBlocks l (s.now + n) .clockLost).2) (by
          rw [hcaptured.1, List.length_append, List.length_singleton, List.length_cons, hrecords]
          split <;> simp only [List.length_nil, List.length_singleton] <;> omega)).1
      have hmode : (v.setMode l .fault .clockLost 0).rwu = v.rwu.enqueue (.modeChange l (s.lane l).mode .fault .clockLost 0 c.ln) := by
        rw [setMode_rwu, hvlane, hx]
      rw [List.foldl_cons, ← hmode] at hall
      rw [hu, apply_rwu, hall, hcaptured.1, hcaptured.2, queuedRecords, List.append_assoc]
      rfl
    have hpath : (s.pass n).SamePath u := by
      rw [hu, hv]
      exact (((samePath_apply _ _ _).trans (samePath_captureIfWaiting _ _)).trans (samePath_setMode _ _ _ _ _)).trans
        (samePath_apply _ _ _)
    have hlane : u.lane l = (y.stopBlocks l (s.now + n) .clockLost).1 := by rw [hu, apply_lane_self]
    have htlane (m : LaneId) : (u.takeSnapshot l .modeChange).lane m = u.lane m := takeSnapshot_lane _ _ _ _
    refine ⟨u.takeSnapshot l .modeChange, by rw [hexec, hlose], ?_, fun w => ?_, ?_, ?_, hpath.ptu, hpath.sram, ?_, ?_, ?_⟩
    · rw [htlane, hlane, stopBlocks_eq, hqueued, hpendings, hy, hx]
      rfl
    · rw [htlane, hlane, stopBlocks_eq]
      refine (valve_mapValves y _ w).trans ((cancelValve_eq y _ _).trans ?_)
      rw [hy, hx]
      rfl
    · rw [htlane, hu, apply_lane_ne _ _ (other_lane_ne l), hother, hv, captureIfWaiting_lane, apply_lane_ne _ _ (other_lane_ne l),
        pass_lane]
    · show u.rtu = s.rtu
      rw [hu, apply_rtu, hrtu, hv, captureIfWaiting_rtu, apply_rtu]
      rfl
    · have hsame : (u.takeSnapshot l .modeChange).rwu.queue = u.rwu.queue := setReport_queue _ _ _
      rw [hsame, hqueue, hrecords, hr]
      split <;> rfl
    · have hsnapshot := (takeSnapshot_report u l .modeChange).1
      rw [hsnapshot, hreport, hpath.events, snapshotOf, htlane]
      rfl
    · rw [(takeSnapshot_report u l .modeChange).2, hreport]

end Sys2Proof.Machine

/-! ## Proofs: the timers of one valve and the supply (O49 to O52) -/
namespace Sys2Proof.Machine

/-! ### Events of a lane's EJU -/

/-- An event of the EJU puts its lane in place, with the drain condition it finds, and makes its records. -/
theorem ejectorEvent_eq {s : State} {l : LaneId} {w : Lane × List Record} (hmode : w.1.mode = (s.lane l).mode)
    (hdue : w.1.drainDue = (s.lane l).drainDue) :
    s.ejectorEvent l w = s.apply l ({ w.1 with drainDue := drainFound (s.lane l) w.1 }, w.2) := by
  rw [State.ejectorEvent, evaluateDrain_eq, modLane_apply, evaluated_tick hmode hdue]

/-- An event that leaves the quiet report finds nothing of the drain condition. -/
theorem ejectorEvent_of_quiet {s : State} {l : LaneId} {x : Lane} (hquiet : x.quiet = (s.lane l).quiet) :
    s.ejectorEvent l (x, []) = s.setLane l x := by
  rw [State.ejectorEvent, evaluateDrain_eq, modLane_apply, Lane.evaluated, if_neg (by simp [hquiet]), apply_nil]

theorem quiet_setValve {x : Lane} {v : Fin 64} {y : Valve} (hopening : y.opening.isSome = (x.valve v).opening.isSome)
    (hpending : y.pending.isSome = (x.valve v).pending.isSome) : (x.setValve v y).quiet = x.quiet := by
  refine quiet_congr Iff.rfl (fun w => ?_) fun w => ?_
  all_goals
    by_cases hw : w = v
    · rw [hw, valve_setValve_self]
      assumption
    · rw [valve_setValve_ne x y hw]

/-- An event that changes one valve of a lane, and of the rest of the lane its counters. -/
theorem onlyValve_of_apply {s t : State} {n : Nat} {l : LaneId} {v : Fin 64} {y : Valve} {c : Counters} {rs : List Record}
    {b : Bool} (ht : t = (s.pass n).apply l ({ (s.lane l).setValve v y with counters := c, drainDue := b }, rs))
    (hb : b = drainFound (s.lane l) { (s.lane l).setValve v y with counters := c }) :
    onlyValve s t l v ∧ (t.lane l).valve v = y ∧ (t.lane l).counters = c ∧ t.rwu = rs.foldl Rwu.enqueue s.rwu := by
  have hlane : t.lane l = { (s.lane l).setValve v y with counters := c, drainDue := b } := by rw [ht, apply_lane_self]
  obtain ⟨hother, hcmu, hrtu, hptu, hsram⟩ : t.lane l.other = s.lane l.other ∧ t.cmu = s.cmu ∧ t.rtu = s.rtu ∧
      t.ptu = s.ptu ∧ t.sram = s.sram := by
    rw [ht]
    cases l <;> exact ⟨rfl, rfl, rfl, rfl, rfl⟩
  refine ⟨⟨fun w hw => ?_, ?_, hother, hcmu, hrtu, hptu, hsram⟩, ?_, ?_, ?_⟩
  · rw [hlane]
    exact valve_setValve_ne _ y hw
  · rw [hlane, hb]
    rfl
  · rw [hlane]
    exact valve_setValve_self _ _ _
  · rw [hlane]
  · rw [ht, apply_rwu]
    rfl

theorem usClocks_eq (n : Nat) : usClocks n = 50 * n := Nat.mul_comm n 50

theorem endTickNow_eq (x : Lane) : x.endTickNow = restEndsAfterNow x := by
  unfold Lane.endTickNow restEndsAfterNow
  cases hm : x.mode <;> simp [tickAdd, Clock.tnow]

/-- A phase change that leaves what is open and what waits is all that its event does. -/
theorem turned_of_exec {s : State} {l : LaneId} {v : Fin 64} {n : Nat} {p : ValvePhase} {c : Instr}
    (hexec : exec c s = .next ((s.pass n).ejectorEvent l ((s.lane l).setValve v { (s.lane l).valve v with phase := p }, [])))
    (hopening : ({ (s.lane l).valve v with phase := p } : Valve).opening.isSome = ((s.lane l).valve v).opening.isSome) :
    ∃ t, exec c s = .next t ∧ t = (s.pass n).modLane l (fun x => x.setValve v { x.valve v with phase := p }) ∧
      onlyValve s t l v ∧ (t.lane l).counters = (s.lane l).counters ∧ t.rwu = s.rwu ∧
      t.valveOutput l v = ({ (s.lane l).valve v with phase := p } : Valve).driven := by
  have hquiet := quiet_setValve (v := v) (y := { (s.lane l).valve v with phase := p }) hopening rfl
  have hlane : (s.pass n).lane l = s.lane l := pass_lane s n l
  rw [ejectorEvent_of_quiet (by rw [hlane, hquiet])] at hexec
  obtain ⟨t, ht⟩ : ∃ t, t = (s.pass n).setLane l ((s.lane l).setValve v { (s.lane l).valve v with phase := p }) := ⟨_, rfl⟩
  rw [← ht] at hexec
  obtain ⟨honly, hvalve, hcounters, hrwu⟩ := onlyValve_of_apply (n := n) (c := (s.lane l).counters) (b := (s.lane l).drainDue)
    (rs := []) ht (by rw [drainFound, if_neg]; exact fun h => h.2 hquiet)
  exact ⟨t, hexec, by rw [ht, State.modLane, hlane], honly, hcounters, hrwu, by rw [State.valveOutput, hvalve]⟩

/-! ### What each timer does -/

section
variable {x : Lane} {now : Nat} {v : Fin 64} {o : Opening}

theorem boostExpires_due (hphase : (x.valve v).phase = .boost o) (hdue : o.began + 50 * o.boostUs ≤ now) :
    x.boostExpires now v = x.setValve v { x.valve v with phase := .sustain o now true } := by
  simp only [Lane.boostExpires, hphase, usClocks_eq]
  exact if_pos hdue

theorem boostExpires_early (hphase : (x.valve v).phase = .boost o) (hearly : now < o.began + 50 * o.boostUs) :
    x.boostExpires now v = x := by
  simp only [Lane.boostExpires, hphase, usClocks_eq]
  exact if_neg (by omega)

theorem carrierTurns_sustain {p : Nat} {d : Bool} (hphase : (x.valve v).phase = .sustain o p d) :
    x.carrierTurns now v =
      if p + 50 * o.carrierUs ≤ now then x.setValve v { x.valve v with phase := .sustain o (p + 50 * o.carrierUs) true }
      else if d && decide (p + o.carrierUs * 50 * o.sustainDuty / 16 ≤ now) then
        x.setValve v { x.valve v with phase := .sustain o p false }
      else x := by
  simp only [Lane.carrierTurns, hphase, usClocks_eq, Opening.drivenClocks]
  rfl

theorem guardTrips_due (l : LaneId) (hopening : (x.valve v).opening = some o) (hdue : o.began + 50 * o.maxOnUs ≤ now) :
    x.guardTrips l now v =
      (({ x with counters := { x.counters with valveLimitTrips := x.counters.valveLimitTrips + 1 } } : Lane).setValve v
          { x.valve v with phase := .recover now x.block.recoveryUs (restEndsAfterNow x) },
        [o.limitRecord l v]) := by
  simp only [Lane.guardTrips, hopening, usClocks_eq, endTickNow_eq, Lane.toRecover]
  exact if_pos hdue

theorem testEnds_due {d : Nat} (hopening : (x.valve v).opening = some o) (htest : o.source = .test d)
    (hdue : o.began + 50 * d ≤ now) :
    x.testEnds now v = x.setValve v { x.valve v with phase := .recover now x.block.recoveryUs (restEndsAfterNow x) } := by
  simp only [Lane.testEnds, hopening, htest, usClocks_eq, endTickNow_eq, Lane.toRecover]
  exact if_pos hdue

theorem recoveryEnds_due {b r : Nat} {e : Option TickTime} (hphase : (x.valve v).phase = .recover b r e)
    (hdue : b + 50 * r ≤ now) :
    x.recoveryEnds now v =
      match (x.valve v).pending with
      | some f => x.openEntry now v f none
      | none => x.setValve v { x.valve v with phase := .closed } := by
  simp only [Lane.recoveryEnds, hphase, usClocks_eq]
  exact if_pos hdue

end

theorem driven_iff (y : Valve) : y.driven = true ↔ (∃ o, y.phase = .boost o) ∨ ∃ o p, y.phase = .sustain o p true := by
  cases h : y.phase <;> simp [Valve.driven, h]

/-! ### The rows of one valve -/

section
variable {s : State} (hs : s.Settled) (n : Nat) (l : LaneId) (v : Fin 64)
include hs

theorem exec_boostTimer : exec (.boostTimer n l v) s =
    .next ((s.pass n).ejectorEvent l ((s.lane l).boostExpires (s.now + n) v, [])) := by
  show Host.Outcome.next ((s.begin n).ejectorEvent l (((s.begin n).lane l).boostExpires (s.begin n).now v, [])) = _
  rw [begin_of_settled hs n, pass_lane]
  rfl

theorem exec_carrierPeriod : exec (.carrierPeriod n l v) s =
    .next ((s.pass n).ejectorEvent l ((s.lane l).carrierTurns (s.now + n) v, [])) := by
  show Host.Outcome.next ((s.begin n).ejectorEvent l (((s.begin n).lane l).carrierTurns (s.begin n).now v, [])) = _
  rw [begin_of_settled hs n, pass_lane]
  rfl

theorem exec_maxOnGuard : exec (.maxOnGuard n l v) s =
    .next ((s.pass n).ejectorEvent l ((s.lane l).guardTrips l (s.now + n) v)) := by
  show Host.Outcome.next ((s.begin n).ejectorEvent l (((s.begin n).lane l).guardTrips l (s.begin n).now v)) = _
  rw [begin_of_settled hs n, pass_lane]
  rfl

theorem exec_recoveryEnd : exec (.recoveryEnd n l v) s =
    .next ((s.pass n).ejectorEvent l ((s.lane l).recoveryEnds (s.now + n) v, [])) := by
  show Host.Outcome.next ((s.begin n).ejectorEvent l (((s.begin n).lane l).recoveryEnds (s.begin n).now v, [])) = _
  rw [begin_of_settled hs n, pass_lane]
  rfl

theorem exec_testDurationEnd : exec (.testDurationEnd n l v) s =
    .next ((s.pass n).ejectorEvent l ((s.lane l).testEnds (s.now + n) v, [])) := by
  show Host.Outcome.next ((s.begin n).ejectorEvent l (((s.begin n).lane l).testEnds (s.begin n).now v, [])) = _
  rw [begin_of_settled hs n, pass_lane]
  rfl

end

theorem ejectorEvent_pass_unchanged (s : State) (n : Nat) (l : LaneId) : (s.pass n).ejectorEvent l (s.lane l, []) = s.pass n := by
  rw [ejectorEvent_of_quiet (by rw [pass_lane]), ← pass_lane s n l, setLane_lane]

/-- Settles O49: in each phase of the valve, by the time reached. -/
theorem boostAndCarrierTimers : Obligations.BoostAndCarrierTimers := by
  refine ⟨fun s n l v o now hs hnow => ?_, fun s l v => driven_iff _⟩
  have hboost := exec_boostTimer hs n l v
  have hcarrier := exec_carrierPeriod hs n l v
  rw [← hnow] at hboost hcarrier
  refine ⟨fun hphase hdue => ?_, fun hphase hearly => ?_, fun p hphase hdriven hearly => ?_, fun p b hphase hdue => ?_,
    fun p b hphase hearly hnot => ?_⟩
  · rw [boostExpires_due hphase hdue] at hboost
    exact turned_of_exec hboost (by simp [Valve.opening, hphase])
  · rw [hboost, boostExpires_early hphase hearly, ejectorEvent_pass_unchanged]
  · rw [carrierTurns_sustain hphase, if_neg (by omega), if_pos (by simpa using hdriven)] at hcarrier
    exact turned_of_exec hcarrier (by simp [Valve.opening, hphase])
  · rw [carrierTurns_sustain hphase, if_pos hdue] at hcarrier
    exact turned_of_exec hcarrier (by simp [Valve.opening, hphase])
  · have hstays : ¬ (b && decide (p + o.carrierUs * 50 * o.sustainDuty / 16 ≤ now)) = true := by
      rcases hnot with rfl | hnot
      · simp
      · simp [hnot]
    rw [hcarrier, carrierTurns_sustain hphase, if_neg (by omega), if_neg hstays, ejectorEvent_pass_unchanged]

/-- An event that changes one valve, counts and records, and evaluates the drain condition. -/
theorem changed_of_exec {s : State} {n : Nat} {l : LaneId} {v : Fin 64} {y : Valve} {c : Counters} {rs : List Record} {i : Instr}
    (hexec : exec i s = .next ((s.pass n).ejectorEvent l ({ (s.lane l).setValve v y with counters := c }, rs))) :
    ∃ t, exec i s = .next t ∧ onlyValve s t l v ∧ (t.lane l).valve v = y ∧ (t.lane l).counters = c ∧
      t.rwu = rs.foldl Rwu.enqueue s.rwu := by
  have hlane : (s.pass n).lane l = s.lane l := pass_lane s n l
  rw [ejectorEvent_eq (by rw [hlane]; rfl) (by rw [hlane]; rfl), hlane] at hexec
  exact ⟨_, hexec, onlyValve_of_apply rfl rfl⟩

/-- Settles O50: each of the three ends as the change of one valve. -/
theorem openingAndRecoveryEnds : Obligations.OpeningAndRecoveryEnds := by
  intro s n l v now hs hnow
  refine ⟨fun o hopening hdue => ?_, fun o d hopening htest hdue => ?_, fun b r e hphase hdue => ?_⟩
  · have hexec := exec_maxOnGuard hs n l v
    rw [← hnow, guardTrips_due l hopening hdue] at hexec
    obtain ⟨t, ht, honly, hvalve, hcounters, hrwu⟩ := changed_of_exec (y := { (s.lane l).valve v with
      phase := .recover now (s.lane l).block.recoveryUs (restEndsAfterNow (s.lane l)) }) hexec
    refine ⟨t, ht, honly, hvalve, hcounters, ?_⟩
    exact hrwu
  · have hexec := exec_testDurationEnd hs n l v
    rw [← hnow, testEnds_due hopening htest hdue] at hexec
    obtain ⟨t, ht, honly, hvalve, hcounters, hrwu⟩ := changed_of_exec (c := (s.lane l).counters) hexec
    exact ⟨t, ht, honly, hrwu, hvalve, hcounters⟩
  · have hexec := exec_recoveryEnd hs n l v
    rw [← hnow, recoveryEnds_due hphase hdue] at hexec
    cases hpending : ((s.lane l).valve v).pending with
    | none =>
      rw [hpending] at hexec
      obtain ⟨t, ht, honly, hvalve, hcounters, hrwu⟩ := changed_of_exec (c := (s.lane l).counters) hexec
      exact ⟨t, ht, honly, hrwu, fun _ => ⟨hvalve.trans (congrArg (Valve.mk .closed) hpending), hcounters⟩, fun f hf => by cases hf⟩
    | some f =>
      rw [hpending] at hexec
      obtain ⟨t, ht, honly, hvalve, hcounters, hrwu⟩ := changed_of_exec (y := { phase := .boost ((s.lane l).beginOpening now (.firing f)), pending := none })
        (c := { (s.lane l).counters with firingsOpened := (s.lane l).counters.firingsOpened + 1 }) hexec
      refine ⟨t, ht, honly, hrwu, fun hnone => (by cases hnone), fun g hg => ?_⟩
      obtain rfl : f = g := Option.some.inj hg
      exact ⟨hvalve, by rw [State.valveOutput, hvalve]; rfl, hcounters⟩

/-! ### The supply -/

theorem endOpening_of_none {x : Lane} {y : Valve} (now : Nat) (e : Option TickTime) (h : y.opening = none) :
    x.endOpening now e y = y := by rw [Lane.endOpening, h, Option.isSome_none, if_neg Bool.false_ne_true]

theorem endOpening_of_some {x : Lane} {y : Valve} (now : Nat) (e : Option TickTime) (h : y.opening ≠ none) :
    x.endOpening now e y = { y with phase := .recover now x.block.recoveryUs e } := by
  rw [Lane.endOpening, if_pos (Option.isSome_iff_ne_none.mpr h), Lane.toRecover]

theorem inReset_pass (s : State) (n : Nat) : (s.pass n).inReset = s.inReset := rfl

/-- Settles O51: every valve ends its opening, whatever the lane mode. -/
theorem supplyDropEndsOpenings : Obligations.SupplyDropEndsOpenings := by
  intro s n l openings pendings hs hreset hgood hopenings hpendings
  obtain ⟨x, hx⟩ : ∃ x : Lane, x = ((s.lane l).dropSupply l (s.now + n)).1 := ⟨_, rfl⟩
  have hsame := hx.trans (dropSupply_eq (s.lane l) l (s.now + n))
  obtain ⟨vs, hvs⟩ : ∃ vs, vs = ((s.lane l).mapValves fun y =>
      { (s.lane l).endOpening (s.now + n) (s.lane l).endTickNow y with pending := none }).valves := ⟨_, rfl⟩
  have hvalve (v : Fin 64) : vs[v] =
      { (s.lane l).endOpening (s.now + n) (restEndsAfterNow (s.lane l)) ((s.lane l).valve v) with pending := none } := by
    rw [hvs, ← endTickNow_eq]
    exact valve_mapValves _ _ v
  rw [← hpendings, ← hvs] at hsame
  have hexec : exec (.supplyDrop n l) s = .next ((s.pass n).ejectorEvent l ((s.lane l).dropSupply l (s.now + n))) := by
    show Host.Outcome.next ((s.begin n).supplyFalls l) = _
    rw [begin_of_settled hs n, State.supplyFalls, pass_lane, if_neg (by simp [hgood]), inReset_pass, hreset,
      if_neg Bool.false_ne_true]
    rfl
  rw [ejectorEvent_eq (by rw [pass_lane, ← hx, hsame]) (by rw [pass_lane, ← hx, hsame]), pass_lane, ← hx] at hexec
  refine ⟨_, hexec, ?_⟩
  rw [apply_lane_self, apply_rwu]
  refine ⟨fun v => ?_, ?_, ?_⟩
  · have hthis : ({ x with drainDue := drainFound (s.lane l) x } : Lane).valve v = vs[v] := by
      rw [hsame]
      rfl
    rw [hthis, hvalve]
    exact ⟨rfl, fun hnone => by rw [endOpening_of_none _ _ hnone], fun hsome => by rw [endOpening_of_some _ _ hsome]⟩
  · rw [hsame]
    rfl
  · rw [hopenings]
    cases l <;> exact ⟨rfl, rfl, rfl, rfl, rfl, rfl⟩

/-- Settles O52: no valve changes, so nothing is found of the drain condition. -/
theorem supplyReturnRecordsEpisode : Obligations.SupplyReturnRecordsEpisode := by
  intro s n l hs hreset hlow
  show Host.Outcome.next ((s.begin n).supplyRises l) = _
  have hquiet : ((s.lane l).returnSupply l).1.quiet = (s.lane l).quiet := quiet_of_same rfl rfl
  rw [begin_of_settled hs n, State.supplyRises, pass_lane, hlow, if_neg Bool.false_ne_true, inReset_pass, hreset,
    if_neg Bool.false_ne_true, State.ejectorEvent, evaluateDrain_eq, modLane_apply, pass_lane, Lane.evaluated,
    if_neg (by simp [hquiet])]
  rw [State.modLane, pass_lane]
  cases l <;> rfl

end Sys2Proof.Machine

/-! ## Proofs: the signature and the ranges of the staged bank, and the end of its scan (O53) -/
namespace Sys2Proof.Machine

/-! ### The signature -/

theorem signatureFrom_concat (ws : List Word) (w : Word) :
    ∀ (s : Word) (i : Nat), signatureFrom s i (ws ++ [w]) = signatureStep (signatureFrom s i ws) w (i + ws.length) := by
  induction ws with
  | nil => intro s i; rfl
  | cons v ws ih =>
    intro s i
    rw [List.cons_append, signatureFrom, ih, signatureFrom, List.length_cons, Nat.add_right_comm, Nat.add_assoc]

/-- The step in numbers: the word turned left by five places is its low 27 bits times 32 with its five top bits below. -/
theorem signatureStep_toNat (s w : Word) (i : Nat) :
    (signatureStep s w i).toNat =
      (((s.toNat * 32 % 4294967296 + s.toNat / 134217728) ^^^ w.toNat) + i) % 4294967296 := by
  have hturned : (s.rotateLeft 5).toNat = s.toNat * 32 % 4294967296 + s.toNat / 134217728 := by
    have hlow : s.toNat <<< 5 % 2 ^ 32 = (s.toNat % 134217728) <<< 5 := by
      rw [Nat.shiftLeft_eq, Nat.shiftLeft_eq]
      omega
    have htop : s.toNat / 134217728 < 2 ^ 5 := by
      have := s.isLt
      omega
    rw [BitVec.toNat_rotateLeft, hlow, Nat.shiftRight_eq_div_pow]
    rw [← Nat.shiftLeft_add_eq_or_of_lt htop, Nat.shiftLeft_eq]
    omega
  rw [signatureStep, BitVec.toNat_add, BitVec.toNat_xor, hturned, BitVec.toNat_ofNat]
  omega

theorem signature_toNat (bank : Vector Word 1024) : (signature bank).toNat = signatureOf bank 1024 := by
  have hprefix (n : Nat) (hn : n ≤ 1024) :
      (signatureFrom Config.signatureSeed 0 (bank.toList.take n)).toNat = signatureOf bank n := by
    induction n with
    | zero => rfl
    | succ n ih =>
      have hlength : n < bank.toList.length := by simpa using hn
      rw [List.take_succ_eq_append_getElem hlength, signatureFrom_concat, signatureStep_toNat, ih (by omega), List.length_take,
        Nat.min_eq_left hlength.le, Nat.zero_add, signatureOf]
      simp [show n < 1024 from hn]
  have hall := hprefix 1024 le_rfl
  rwa [List.take_of_length_le (by simp)] at hall

/-! ### The ranges -/

theorem colourWordValid_iff (w : Word) : colourWordValid w = true ↔ ∀ n : Fin 4, w.toNat / 256 ^ n.val % 256 ≤ 6 := by
  simp [colourWordValid, Fin.forall_fin_succ, Nat.shiftRight_eq_div_pow, and_assoc]

/-- The words of the grade block, each at its place. -/
theorem gradeWordValid_iff (bank : Vector Word 1024) {k : Nat} (hk : k < 15) :
    gradeWordValid (readGradeBlock bank) k = true ↔
      ∀ r ∈ gradeRanges (stagedNat bank), 0x100 + k = r.1 → r.2.1 ≤ stagedNat bank (0x100 + k) ∧ stagedNat bank (0x100 + k) ≤ r.2.2 := by
  simp only [gradeRanges, List.forall_mem_cons, readGradeBlock, gradeBase]
  generalize stagedNat bank = p
  interval_cases k <;> simp [gradeWordValid, and_comm]

/-- The words of a lane's parameter block, each at its place. -/
theorem blockWordValid_iff (bank : Vector Word 1024) (l : LaneId) {k : Nat} (hk : k < 15) :
    blockWordValid (readLaneBlock bank l) k = true ↔
      (blockBase l + k = blockBase l + 1 →
        -32 ≤ (bank[blockBase l + k]?.getD 0).toInt ∧ (bank[blockBase l + k]?.getD 0).toInt ≤ 32) ∧
      ∀ r ∈ laneRanges (stagedNat bank) (blockBase l), blockBase l + k = r.1 →
        r.2.1 ≤ stagedNat bank (blockBase l + k) ∧ stagedNat bank (blockBase l + k) ≤ r.2.2 := by
  simp only [laneRanges, List.forall_mem_cons, readLaneBlock]
  generalize stagedNat bank = p
  generalize blockBase l = base
  interval_cases k <;> simp [blockWordValid, and_assoc]

theorem boundaryValid_iff (bank : Vector Word 1024) (l : LaneId) (v : Nat) :
    boundaryValid bank l v = true ↔ stagedNat bank (boundaryBase l + v) ≤ 1023 ∧
      (1 ≤ v → stagedNat bank (boundaryBase l + v - 1) < stagedNat bank (boundaryBase l + v)) := by
  cases v with
  | zero => simp [boundaryValid]
  | succ v => simp [boundaryValid, ← Nat.add_assoc]

theorem lanePart_eq (l : LaneId) : lanePart l = (boundaryBase l, blockBase l) := by cases l <;> rfl

theorem maskHas_eq (m : BitVec 2) (l : LaneId) : maskHas m l = m.getLsbD (laneNumber l) := by
  have hall : ∀ m : BitVec 2, maskHas m .lane0 = m.getLsbD 0 ∧ maskHas m .lane1 = m.getLsbD 1 := by decide
  cases l
  · exact (hall m).1
  · exact (hall m).2

/-- What R128 asks of a word that belongs to the part of one lane. -/
def laneWordInRange (bank : Vector Word 1024) (l : LaneId) (i : Nat) : Prop :=
  (∀ v < 64, i = (lanePart l).1 + v → stagedNat bank i ≤ 1023 ∧ (1 ≤ v → stagedNat bank (i - 1) < stagedNat bank i)) ∧
    (i = (lanePart l).2 + 1 → -32 ≤ (bank[i]?.getD 0).toInt ∧ (bank[i]?.getD 0).toInt ≤ 32) ∧
    ∀ r ∈ laneRanges (stagedNat bank) (lanePart l).2, i = r.1 → r.2.1 ≤ stagedNat bank i ∧ stagedNat bank i ≤ r.2.2

theorem wordInRange_iff (bank : Vector Word 1024) (m : BitVec 2) (i : Nat) :
    wordInRange bank m i ↔ (i < 0x100 → ∀ n : Fin 4, stagedNat bank i / 256 ^ n.val % 256 ≤ 6) ∧
      (∀ r ∈ gradeRanges (stagedNat bank), i = r.1 → r.2.1 ≤ stagedNat bank i ∧ stagedNat bank i ≤ r.2.2) ∧
      ∀ l, m.getLsbD (laneNumber l) = true → laneWordInRange bank l i := Iff.rfl

theorem offset_of_gradeRanges {p : Nat → Nat} {r : Nat × Nat × Nat} (h : r ∈ gradeRanges p) : 0x100 ≤ r.1 ∧ r.1 < 0x100 + 15 := by
  simp only [gradeRanges, List.mem_cons, List.not_mem_nil, or_false] at h
  rcases h with rfl | rfl | rfl | rfl | rfl | rfl | rfl | rfl | rfl | rfl | rfl | rfl | rfl | rfl | rfl <;> simp

theorem offset_of_laneRanges {p : Nat → Nat} {b : Nat} {r : Nat × Nat × Nat} (h : r ∈ laneRanges p b) : b ≤ r.1 ∧ r.1 < b + 15 := by
  simp only [laneRanges, List.mem_cons, List.not_mem_nil, or_false] at h
  rcases h with rfl | rfl | rfl | rfl | rfl | rfl | rfl | rfl | rfl | rfl | rfl | rfl | rfl | rfl <;> simp

theorem laneWordValid_iff (bank : Vector Word 1024) (l : LaneId) (i : Nat) :
    laneWordValid bank l i = true ↔ laneWordInRange bank l i := by
  have hparts : boundaryBase l + 64 ≤ blockBase l := by cases l <;> decide
  unfold laneWordValid laneWordInRange
  rw [lanePart_eq]
  dsimp only
  by_cases hboundary : boundaryBase l ≤ i ∧ i < boundaryBase l + 64
  · obtain ⟨v, rfl⟩ := Nat.exists_eq_add_of_le hboundary.1
    rw [if_pos hboundary, Nat.add_sub_cancel_left, boundaryValid_iff]
    refine ⟨fun h => ⟨fun w _ hw => ?_, fun hi => by omega, fun r hr hi => ?_⟩, fun h => h.1 v (by omega) rfl⟩
    · obtain rfl : v = w := by omega
      exact h
    · have := offset_of_laneRanges hr
      omega
  · rw [if_neg hboundary]
    by_cases hblock : blockBase l ≤ i ∧ i < blockBase l + 15
    · obtain ⟨k, rfl⟩ := Nat.exists_eq_add_of_le hblock.1
      rw [if_pos hblock, Nat.add_sub_cancel_left, blockWordValid_iff bank l (by omega)]
      exact ⟨fun h => ⟨fun v hv hi => by omega, h⟩, fun h => h.2⟩
    · rw [if_neg hblock]
      refine ⟨fun _ => ⟨fun v hv hi => by omega, fun hi => by omega, fun r hr hi => ?_⟩, fun _ => rfl⟩
      have := offset_of_laneRanges hr
      omega

/-- Below the lanes' parts no word is judged for a lane. -/
theorem laneWordInRange_of_lt (bank : Vector Word 1024) (l : LaneId) {i : Nat} (h : i < 0x200) : laneWordInRange bank l i := by
  have hparts : 0x200 ≤ boundaryBase l ∧ 0x200 ≤ blockBase l := by cases l <;> decide
  rw [← laneWordValid_iff, laneWordValid, if_neg (by omega), if_neg (by omega)]

theorem stagedWordValid_iff (bank : Vector Word 1024) (m : BitVec 2) (i : Nat) :
    stagedWordValid bank m i = true ↔ wordInRange bank m i := by
  rw [wordInRange_iff, stagedWordValid]
  by_cases hcolour : i < 256
  · rw [if_pos hcolour, colourWordValid_iff]
    refine ⟨fun h => ⟨fun _ => h, fun r hr hi => ?_, fun l _ => laneWordInRange_of_lt bank l (by omega)⟩, fun h => h.1 hcolour⟩
    have := offset_of_gradeRanges hr
    omega
  · rw [if_neg hcolour]
    by_cases hgrade : 256 ≤ i ∧ i < 256 + 15
    · obtain ⟨k, rfl⟩ := Nat.exists_eq_add_of_le hgrade.1
      rw [if_pos (show gradeBase ≤ 256 + k ∧ 256 + k < gradeBase + 15 from hgrade),
        show 256 + k - gradeBase = k from Nat.add_sub_cancel_left 256 k, gradeWordValid_iff bank (by omega)]
      exact ⟨fun h => ⟨fun hi => absurd hi hcolour, h, fun l _ => laneWordInRange_of_lt bank l (by omega)⟩, fun h => h.2.1⟩
    · rw [if_neg (show ¬ (gradeBase ≤ i ∧ i < gradeBase + 15) from hgrade)]
      have hlane (l : LaneId) : (!maskHas m l || laneWordValid bank l i) = true ↔
          (m.getLsbD (laneNumber l) = true → laneWordInRange bank l i) := by
        rw [← maskHas_eq, ← laneWordValid_iff]
        cases maskHas m l <;> simp
      rw [Bool.and_eq_true, hlane, hlane]
      refine ⟨fun h => ⟨fun hi => absurd hi hcolour, fun r hr hi => ?_, fun l => ?_⟩, fun h => ⟨h.2.2 _, h.2.2 _⟩⟩
      · have := offset_of_gradeRanges hr
        omega
      · cases l
        · exact h.1
        · exact h.2

/-! ### The end of a scan -/

/-- What the lanes of a mask `w` that have swapped at once leave of a commit whose scan has ended (R133, R137). -/
structure State.ScanSwapped (s t : State) (m w : BitVec 2) (r : CommandRecord) : Prop where
  staged : t.rtu.staged = s.rtu.staged
  path : s.SamePath t
  lanes : ∀ l, t.lane l = if maskHas w l = true then (s.lane l).takeTable s.rtu.staged l else s.lane l
  waits : w = 0 ∨ w ≠ m → t.rtu.commit = .swapping m w ∧ t.cmu = s.cmu ∧ t.rwu = s.rwu
  done : w ≠ 0 → w = m → t.rtu.commit = .idle ∧ t.cmu = { s.cmu with executing := none } ∧
    t.rwu = s.rwu.enqueue (.commandDone r.code r.laneField r.seq .ok (BitVec.ofNat 32 m.toNat))

theorem endCommit_eq {s : State} {r : CommandRecord} (h : s.cmu.executing = some r) (c : CommandStatus) (d : Word) :
    s.endCommit c d =
      { s with
        rtu := { s.rtu with commit := .idle }
        cmu := { s.cmu with executing := none }
        rwu := s.rwu.enqueue (.commandDone r.code r.laneField r.seq c d) } := by
  rw [State.endCommit]
  exact completeCommand_eq (s := { s with rtu := { s.rtu with commit := .idle } }) h c d

theorem setWidth_eq_ofNat (m : BitVec 2) : m.setWidth 32 = BitVec.ofNat 32 m.toNat := by
  apply BitVec.eq_of_toNat_eq
  simp

theorem maskHas_or_laneBit_other (w : BitVec 2) (l : LaneId) : maskHas (w ||| laneBit l) l.other = maskHas w l.other := by
  have hall : ∀ w : BitVec 2, maskHas (w ||| laneBit .lane0) .lane1 = maskHas w .lane1 ∧
      maskHas (w ||| laneBit .lane1) .lane0 = maskHas w .lane0 := by decide
  cases l
  · exact (hall w).1
  · exact (hall w).2

theorem or_laneBit_ne_zero (w : BitVec 2) (l : LaneId) : w ||| laneBit l ≠ 0 := by
  intro h
  have hhas := maskHas_or_laneBit w l
  rw [h] at hhas
  cases l <;> cases hhas

/-- A lane mask is what it says of the two lanes. -/
theorem mask_ext {a b : BitVec 2} (h : ∀ l, maskHas a l = maskHas b l) : a = b := by
  have hall : ∀ a b : BitVec 2, maskHas a .lane0 = maskHas b .lane0 → maskHas a .lane1 = maskHas b .lane1 → a = b := by decide
  exact hall a b (h .lane0) (h .lane1)

theorem maskHas_zero (l : LaneId) : maskHas 0 l = false := by cases l <;> rfl

theorem eq_or_eq_other (k l : LaneId) : k = l ∨ k = l.other := by cases k <;> cases l <;> decide

theorem swapAtOnce_of {s : State} {l : LaneId} (h : swapsAtOnce (s.lane l)) : s.swapAtOnce l = s.swapLane l := by
  rw [State.swapAtOnce, if_pos]
  rcases h with h | h <;> simp [h]

theorem swapAtOnce_of_not {s : State} {l : LaneId} (h : ¬swapsAtOnce (s.lane l)) : s.swapAtOnce l = s := by
  rw [State.swapAtOnce, if_neg]
  intro hnow
  exact h (by simpa [swapsAtOnce] using hnow)

section
variable {s t : State} {m w : BitVec 2} {r : CommandRecord} (h : s.ScanSwapped t m w r)
include h

theorem State.ScanSwapped.swapWaiting (l : LaneId) : t.swapWaiting l = (maskHas m l && !maskHas w l) := by
  by_cases hwaits : w = 0 ∨ w ≠ m
  · rw [State.swapWaiting, (h.waits hwaits).1]
  · obtain ⟨hne, rfl⟩ : w ≠ 0 ∧ w = m := by simpa using hwaits
    rw [State.swapWaiting, (h.done hne rfl).1, Bool.and_not_self]

/-- A targeted lane that swaps at once adds its bit, the last one completing the commit. -/
theorem State.ScanSwapped.swapLane (hexecuting : s.cmu.executing = some r) {l : LaneId} (hmask : maskHas m l = true)
    (hout : maskHas w l = false) : s.ScanSwapped (t.swapLane l) m (w ||| laneBit l) r := by
  have hwaiting : t.swapWaiting l = true := by rw [h.swapWaiting, hmask, hout]; rfl
  have hne : w ≠ m := by rintro rfl; rw [hout] at hmask; cases hmask
  obtain ⟨hcommit, hcmu, hrwu⟩ := h.waits (.inr hne)
  have hstep := swapLane_of_waiting hcommit hwaiting
  have hworked := (worked_swapLane t (Set.mem_singleton l)).other
  have hlanes (k : LaneId) : (t.swapLane l).lane k =
      if maskHas (w ||| laneBit l) k = true then (s.lane k).takeTable s.rtu.staged k else s.lane k := by
    rcases eq_or_eq_other k l with rfl | rfl
    · rw [swapLane_lane, if_pos hwaiting, h.lanes, hout, if_neg Bool.false_ne_true, maskHas_or_laneBit, if_pos rfl, h.staged]
    · rw [hworked _ (other_lane_ne l), h.lanes, maskHas_or_laneBit_other]
  refine ⟨?_, h.path.trans (samePath_swapLane t l), hlanes, fun hnot => ?_, fun _ hdone => ?_⟩
  · rw [← h.staged, hstep]
    split
    · rw [endCommit_rtu, modLane_rtu]
    · rfl
  · have hmore : w ||| laneBit l ≠ m := hnot.resolve_left (or_laneBit_ne_zero w l)
    rw [hstep, if_neg hmore]
    refine ⟨rfl, ?_, ?_⟩
    · rw [← hcmu]
      cases l <;> rfl
    · rw [← hrwu]
      cases l <;> rfl
  · have hthis : (t.modLane l fun x => x.takeTable t.rtu.staged l).cmu.executing = some r := by
      rw [modLane_cmu, hcmu, hexecuting]
    rw [hstep, if_pos hdone, endCommit_eq hthis, setWidth_eq_ofNat, modLane_cmu, modLane_rwu, hcmu, hrwu]
    exact ⟨rfl, rfl, rfl⟩

/-- One lane's turn at the scan's end: it is among the swapped ones afterwards exactly when it is targeted and swaps at once. -/
theorem State.ScanSwapped.swapAtOnce (hexecuting : s.cmu.executing = some r) {l : LaneId} (hout : maskHas w l = false) :
    ∃ w', s.ScanSwapped (t.swapAtOnce l) m w' r ∧ (maskHas w' l = true ↔ maskHas m l = true ∧ swapsAtOnce (s.lane l)) ∧
      maskHas w' l.other = maskHas w l.other := by
  have hlane : t.lane l = s.lane l := by rw [h.lanes, hout, if_neg Bool.false_ne_true]
  by_cases hnow : swapsAtOnce (s.lane l)
  · rw [swapAtOnce_of (by rwa [hlane])]
    cases hmask : maskHas m l with
    | true => exact ⟨_, h.swapLane hexecuting hmask hout, by simp [maskHas_or_laneBit, hnow], maskHas_or_laneBit_other w l⟩
    | false =>
      rw [swapLane_of_not_waiting (by rw [h.swapWaiting, hmask]; rfl)]
      exact ⟨w, h, by simp [hout], rfl⟩
  · rw [swapAtOnce_of_not (by rwa [hlane])]
    exact ⟨w, h, by simp [hout, hnow], rfl⟩

end

/-- The swaps at the scan's end, lane 0 first: those lanes have swapped that are targeted and swap at once. -/
theorem scanSwapped_swapAtOnce {s : State} {r : CommandRecord} (m : BitVec 2) (hexecuting : s.cmu.executing = some r) :
    ∃ w, s.ScanSwapped
        ((({ s with rtu := { s.rtu with commit := .swapping m 0 } } : State).swapAtOnce .lane0).swapAtOnce .lane1) m w r ∧
      ∀ l, maskHas w l = true ↔ maskHas m l = true ∧ swapsAtOnce (s.lane l) := by
  have hstart : s.ScanSwapped { s with rtu := { s.rtu with commit := .swapping m 0 } } m 0 r :=
    ⟨rfl, ⟨rfl, rfl, rfl, rfl, rfl, rfl, rfl⟩, fun l => by rw [maskHas_zero, if_neg Bool.false_ne_true]; cases l <;> rfl,
      fun _ => ⟨rfl, rfl, rfl⟩, fun h => absurd rfl h⟩
  obtain ⟨v, hfirst, hlane0, hrest⟩ := hstart.swapAtOnce hexecuting (maskHas_zero .lane0)
  obtain ⟨w, hboth, hlane1, hkept⟩ := hfirst.swapAtOnce (l := .lane1) hexecuting (hrest.trans (maskHas_zero .lane1))
  refine ⟨w, hboth, fun l => ?_⟩
  cases l
  · rw [← hlane0]
    exact Bool.eq_iff_iff.mp hkept
  · exact hlane1

section
variable {s : State} (hs : s.Settled) (n : Nat)
include hs

theorem exec_scanEnd (hslot : s.cmu.slot = none) : exec (.scanEnd n) s = .next (s.pass n).endScan := by
  show Host.Outcome.next (s.begin n).endScan.finishCommands = _
  rw [begin_of_settled hs n, finishCommands_same fun _ => (worked_endScan _).slot.trans (slot_pass hslot n)]

/-- With no scan that is over the row has no effect (log entry 2). -/
theorem exec_scanEnd_of_early (h : ∀ e m k, s.rtu.commit = .scanning e m k → s.now + n < k + 1024) :
    exec (.scanEnd n) s = .next (s.pass n) := by
  have hsame : (s.pass n).endScan = s.pass n := by
    unfold State.endScan
    split
    · rfl
    · rfl
    · rename_i e m k hcommit
      exact if_neg (Nat.not_le.mpr (h e m k hcommit))
  show Host.Outcome.next (s.begin n).endScan.finishCommands = _
  rw [begin_of_settled hs n, hsame, finishCommands_same (s := s.pass n) (slot_of_settled hs)]

end

/-! A scan of the full length, judged in R132's order. -/

section
variable {s : State} {e : Word} {m : BitVec 2} {k : Nat} (hcommit : s.rtu.commit = .scanning e m k) (hover : k + 1024 ≤ s.now)
include hcommit hover

theorem endScan_of_mismatch (hsig : signature s.rtu.staged ≠ e) :
    s.endScan = s.endCommit .sigMismatch (signature s.rtu.staged) := by
  simp only [State.endScan, hcommit]
  rw [if_pos (show k + Config.scanClocks ≤ s.now from hover), if_pos hsig]

theorem endScan_of_invalid (hsig : signature s.rtu.staged = e) {i : Nat} (hinvalid : lowestInvalid s.rtu.staged m 1024 = some i) :
    s.endScan = s.endCommit .tableInvalid (BitVec.ofNat 32 i) := by
  simp only [State.endScan, hcommit]
  rw [if_pos (show k + Config.scanClocks ≤ s.now from hover), if_neg (not_not.mpr hsig), hinvalid]

theorem endScan_of_valid (hsig : signature s.rtu.staged = e) (hvalid : lowestInvalid s.rtu.staged m 1024 = none) :
    s.endScan = (({ s with rtu := { s.rtu with commit := .swapping m 0 } } : State).swapAtOnce .lane0).swapAtOnce .lane1 := by
  simp only [State.endScan, hcommit]
  rw [if_pos (show k + Config.scanClocks ≤ s.now from hover), if_neg (not_not.mpr hsig), hvalid]

end

theorem lowestInvalid_eq_some {bank : Vector Word 1024} {m : BitVec 2} {n i : Nat} (hi : i < n)
    (hinvalid : stagedWordValid bank m i = false) (hbelow : ∀ j < i, stagedWordValid bank m j = true) :
    lowestInvalid bank m n = some i := by
  rw [lowestInvalid, List.find?_range_eq_some]
  exact ⟨by simp [hinvalid], List.mem_range.mpr hi, fun j hj => by simp [hbelow j hj]⟩

theorem lowestInvalid_eq_none {bank : Vector Word 1024} {m : BitVec 2} {n : Nat}
    (hvalid : ∀ j < n, stagedWordValid bank m j = true) : lowestInvalid bank m n = none := by
  rw [lowestInvalid, List.find?_range_eq_none]
  exact fun j hj => by simp [hvalid j hj]

/-- Settles O53: the formula and the ranges word by word, the answers in R132's order, the swaps lane by lane. -/
theorem scanEndJudgesCommit : Obligations.ScanEndJudgesCommit := by
  refine ⟨signature_toNat, stagedWordValid_iff, fun s n e m k r hs hslot hcommit hexecuting hover => ?_,
    fun s n hs h => exec_scanEnd_of_early hs n h⟩
  have hexec := exec_scanEnd hs n hslot
  have hend (c : CommandStatus) (d : Word) := endCommit_eq (s := s.pass n) hexecuting c d
  refine ⟨fun hsig => ?_, fun i hsig hi hinvalid hbelow => ?_, fun hsig hvalid => ?_⟩
  · rw [hexec, endScan_of_mismatch (s := s.pass n) hcommit hover hsig]
    exact congrArg Host.Outcome.next (hend _ _)
  · rw [hexec, endScan_of_invalid (s := s.pass n) hcommit hover hsig (lowestInvalid_eq_some hi hinvalid hbelow)]
    exact congrArg Host.Outcome.next (hend _ _)
  · rw [endScan_of_valid (s := s.pass n) hcommit hover hsig (lowestInvalid_eq_none hvalid)] at hexec
    obtain ⟨w, hswapped, hhas⟩ := scanSwapped_swapAtOnce (s := s.pass n) m hexecuting
    refine ⟨_, hexec, hswapped.staged, hswapped.path.ptu, hswapped.path.sram, fun l hmask => ?_, fun l hmask hnow => ?_,
      fun l hmask hnot => ?_, fun ⟨l, hmask⟩ hall => ?_, fun ⟨l, hmask, hnot⟩ => ?_⟩
    · rw [hswapped.lanes, if_neg (by simp [hhas, hmask]), pass_lane]
    · rw [hswapped.lanes, if_pos ((hhas l).mpr ⟨hmask, by rwa [pass_lane]⟩), pass_lane]
      rfl
    · have hout : ¬ maskHas w l = true := fun h => hnot (by simpa using ((hhas l).mp h).2)
      rw [hswapped.lanes, if_neg hout, pass_lane, hswapped.swapWaiting, hmask]
      exact ⟨rfl, by simpa using hout⟩
    · have heq : w = m := mask_ext fun l => by
        rw [Bool.eq_iff_iff, hhas l, pass_lane]
        exact ⟨fun h => h.1, fun h => ⟨h, hall l h⟩⟩
      have hne : w ≠ 0 := by
        rintro rfl
        rw [← heq, maskHas_zero] at hmask
        cases hmask
      exact hswapped.done hne heq
    · have hne : w ≠ m := by
        rintro rfl
        exact hnot (by simpa using ((hhas l).mp hmask).2)
      obtain ⟨hcommit', hcmu, hrwu⟩ := hswapped.waits (.inr hne)
      exact ⟨hcmu, hrwu, w, hcommit', fun l => by rw [hhas l, pass_lane]⟩

end Sys2Proof.Machine

/-! ## Proofs: the swap of a lane and the row that brings it (O54) -/
namespace Sys2Proof.Machine

/-! ### The entries that bring a swap -/

/-- An entry that stands at neither end of its slot is neither a header nor an end write (R1). -/
theorem kind_of_entryAt_between {e : FifoEntry} {l : LaneId} {slot : BitVec 4} {w : Nat} (h : entryAt e l slot w) (hw : w < 4096)
    (hzero : w ≠ 0) (hend : w ≠ 4095) : e.kind ≠ .header ∧ e.kind ≠ .endWrite := by
  have hword := slotWordOf_of_entryAt h hw
  have hplace : slotPlace (slotWordOf e.offset) ≠ .header ∧ slotPlace (slotWordOf e.offset) ≠ .endWord := by
    unfold slotPlace
    rw [if_neg (by omega), if_neg (by omega)]
    split
    · simp
    · split <;> simp
  constructor
  all_goals
    intro hkind
    unfold FifoEntry.kind at hkind
    split at hkind
    · exact hplace.1 (by assumption)
    · split at hkind <;> cases hkind
    · split at hkind <;> cases hkind
    · exact hplace.2 (by assumption)
    · cases hkind

theorem ringLane_of_bringsSwap {x : Lane} {l : LaneId} {e : FifoEntry} (h : bringsSwap x l e) : ringLane e.offset = l := by
  rcases h with ⟨slot, k, n, hat, -⟩ | ⟨a, -, hat, -⟩
  · exact ringLane_of_entryAt hat (by decide)
  · exact ringLane_of_entryAt hat (by decide)

theorem entryAt_inj {e : FifoEntry} {l k : LaneId} {slot slot' : BitVec 4} {w w' : Nat} (h : entryAt e l slot w)
    (h' : entryAt e k slot' w') (hw : w < 4096) (hw' : w' < 4096) : w = w' := by
  rw [← slotWordOf_of_entryAt h hw, slotWordOf_of_entryAt h' hw']

theorem verdict_isSome (a : Assembly) (d : Word) :
    (a.verdict d).isSome = true ↔ d ≠ 0x4C4E#16 ++ a.header ∨ a.seen < a.expectedCount ∨ a.loss = true := by
  rw [verdict_eq]
  by_cases hd : d = 0x4C4E#16 ++ a.header
  · by_cases hseen : a.seen < a.expectedCount
    · simp [hd, hseen]
    · cases hl : a.loss <;> simp [hd, hseen]
  · simp [hd]

section
variable {s : State} {l : LaneId} {e : FifoEntry} {slot : BitVec 4}

/-- A header brings the swap exactly when it is accepted (R6). -/
theorem headerBringsSwap_iff (hat : entryAt e l slot 0) :
    s.entryBringsSwap l e = true ↔ ∃ slot h n, headerAccepted (s.lane l) l e slot h n := by
  have hkind := kind_of_entryAt_zero hat
  by_cases hheader : e.be = 0xF ∧ e.data.extractLsb' 16 16 = 0x4C4E#16
  · rw [if_pos hheader] at hkind
    have hdata : e.data = 0x4C4E#16 ++ numberOf e.data := (markerOf_numberOf_iff _ _).1 ⟨hheader.2, rfl⟩
    obtain ⟨d, hd⟩ : ∃ d, d = ((s.lane l).clock.ln.toNat % 65536 + 65536 - (numberOf e.data).toNat) % 65536 := ⟨_, rfl⟩
    obtain ⟨n, hn⟩ : ∃ n, n = (s.lane l).clock.ln - BitVec.ofNat 32 d := ⟨_, rfl⟩
    have hjudged := judgeHeader_eq (expected := (s.lane l).expected) hd hn
    have hbrings : s.entryBringsSwap l e = true ↔ d < 32768 ∧ 0 ≤ (n - (s.lane l).expected).toInt := by
      simp only [State.entryBringsSwap, hkind, hjudged]
      generalize (n - (s.lane l).expected).toInt = z
      by_cases hfar : 32768 ≤ d
      · simp [hfar]
      · by_cases hbefore : z < 0
        · simp [hfar, hbefore]
        · simp [hfar, hbefore, Nat.lt_of_not_le hfar, Int.not_lt.1 hbefore]
    rw [hbrings]
    constructor
    · rintro ⟨hnear, hnot⟩
      exact ⟨slot, numberOf e.data, n, hat, hheader.1, hdata, d, hd, hnear, hn, hnot⟩
    · rintro ⟨slot', h', n', -, hbe, hdata', d', hd', hnear, hn', hnot⟩
      obtain rfl : numberOf e.data = h' := (kind_of_header hat hbe hdata').2
      obtain rfl : d' = d := hd'.trans hd.symm
      obtain rfl : n' = n := hn'.trans hn.symm
      exact ⟨hnear, hnot⟩
  · rw [if_neg hheader] at hkind
    refine iff_of_false (by simp [State.entryBringsSwap, hkind]) ?_
    rintro ⟨slot', h', n', hat', hbe, hdata, -⟩
    rw [(kind_of_header hat' hbe hdata).1] at hkind
    cases hkind

/-- An end write brings the swap exactly when it finishes a line that is handed void or behind skipped ones (R12). -/
theorem endBringsSwap_iff (hat : entryAt e l slot 4095) :
    s.entryBringsSwap l e = true ↔
      ∃ a, (s.lane l).assembly = some a ∧ entryAt e l a.slot 4095 ∧ e.be = 0xF ∧
        (e.data ≠ 0x4C4E#16 ++ a.header ∨ a.seen < a.expectedCount ∨ a.loss = true ∨ 0 < (a.line - (s.lane l).expected).toInt) := by
  have hkind := kind_of_entryAt_end hat
  have hslot := slotOf_of_entryAt hat (by decide)
  by_cases hbe : e.be = 0xF
  · rw [if_pos hbe] at hkind
    cases hassembly : (s.lane l).assembly with
    | none => simp [State.entryBringsSwap, hkind, hassembly]
    | some a =>
      have hat' : entryAt e l a.slot 4095 ↔ a.slot = slot :=
        ⟨fun h => (slotOf_of_entryAt h (by decide)).symm.trans hslot, fun h => h ▸ hat⟩
      have hbrings : s.entryBringsSwap l e = true ↔
          a.slot = slot ∧ ((a.verdict e.data).isSome = true ∨ 0 < (a.line - (s.lane l).expected).toInt) := by
        simp only [State.entryBringsSwap, hkind, hassembly, hslot, Bool.and_eq_true, Bool.or_eq_true, decide_eq_true_eq]
        rfl
      rw [hbrings, verdict_isSome, ← hat']
      constructor
      · rintro ⟨hsame, hreason⟩
        exact ⟨a, rfl, hsame, hbe, by tauto⟩
      · rintro ⟨b, hb, hsame, -, hreason⟩
        obtain rfl := Option.some.inj hb
        exact ⟨hsame, by tauto⟩
  · rw [if_neg hbe] at hkind
    refine iff_of_false (by simp [State.entryBringsSwap, hkind]) ?_
    rintro ⟨a, -, -, h, -⟩
    exact hbe h

/-- The model's judgement of the head of the FIFO is that of the statement. -/
theorem entryBringsSwap_iff {w : Nat} (hat : entryAt e l slot w) (hw : w < 4096) :
    s.entryBringsSwap l e = true ↔ bringsSwap (s.lane l) l e := by
  by_cases hzero : w = 0
  · subst hzero
    rw [headerBringsSwap_iff hat]
    refine ⟨.inl, fun h => h.resolve_right ?_⟩
    rintro ⟨a, -, hat', -⟩
    exact absurd (entryAt_inj hat hat' hw (by decide)) (by decide)
  · by_cases hend : w = 4095
    · subst hend
      rw [endBringsSwap_iff hat]
      refine ⟨.inr, fun h => h.resolve_left ?_⟩
      rintro ⟨slot', h', n, hat', -⟩
      exact absurd (entryAt_inj hat hat' hw (by decide)) (by decide)
    · obtain ⟨hheader, hendWrite⟩ := kind_of_entryAt_between hat hw hzero hend
      refine iff_of_false ?_ ?_
      · unfold State.entryBringsSwap
        dsimp only
        split <;> simp_all
      · rintro (⟨slot', h', n, hat', -⟩ | ⟨a, -, hat', -⟩)
        · exact hzero (entryAt_inj hat hat' hw (by decide))
        · exact hend (entryAt_inj hat hat' hw (by decide))

end

theorem atSwapPoint_iff {s : State} {l k : LaneId} {e : FifoEntry} {rest : List FifoEntry} {slot : BitVec 4} {w : Nat}
    (hfifo : s.ptu.fifo = e :: rest) (hsorting : (s.lane l).mode.sorting = true) (hat : entryAt e k slot w) (hw : w < 4096) :
    s.atSwapPoint l = true ↔ bringsSwap (s.lane l) l e := by
  have hring := ringLane_of_entryAt hat hw
  simp only [State.atSwapPoint, hfifo, hsorting, Bool.true_and, Bool.and_eq_true, decide_eq_true_eq, hring]
  constructor
  · rintro ⟨rfl, hbrings⟩
    exact (entryBringsSwap_iff hat hw).1 hbrings
  · intro hbrings
    obtain rfl : k = l := hring.symm.trans (ringLane_of_bringsSwap hbrings)
    exact ⟨rfl, (entryBringsSwap_iff hat hw).2 hbrings⟩

/-! ### What a swap does -/

/-- The fields of an active table are the staged words of 7.2. -/
theorem readTable_fields {bank : Vector Word 1024} {l : LaneId} {a : ActiveTable} {p : Nat → Nat} {b : Nat}
    (ha : a = readTable bank l) (hp : p = stagedNat bank) (hb : b = (lanePart l).2) :
    (∀ i : Fin 256, a.colourMap[i] = bank[i.val]) ∧ (∀ v : Fin 64, a.boundaries[v] = p ((lanePart l).1 + v.val)) ∧
      a.grade =
        { stoneQLo := p 0x100, stoneQHi := p 0x101, stoneMin := p 0x102, foreignMin := p 0x103, darkMin := p 0x104
          darkRatio := p 0x105, yellowMin := p 0x106, yellowRatio := p 0x107, chalkMin := p 0x108, chalkRatio := p 0x109
          minArea := p 0x10A, maxArea := p 0x10B, maxLines := p 0x10C, longPolicy := p 0x10D, overflowPolicy := p 0x10E } ∧
      a.block =
        { rearEnable := p b, rearOffset := (bank[b + 1]?.getD 0).toInt, flightDelay := p (b + 2), lead := p (b + 3)
          lag := p (b + 4), margin := p (b + 5), boostUs := p (b + 6), sustainDuty := p (b + 7), carrierUs := p (b + 8)
          recoveryUs := p (b + 9), maxOnUs := p (b + 10), dataWait := p (b + 11), coastLimit := p (b + 12)
          drainLines := p (b + 13), statsIntervalCode := p (b + 14) } := by
  subst ha hp hb
  rw [lanePart_eq]
  exact ⟨fun i => by simp [readTable], fun v => by simp [readTable], rfl, rfl⟩

theorem swapLane_of_bits {s : State} {l : LaneId} {m w : BitVec 2} {r : CommandRecord} (hcommit : s.rtu.commit = .swapping m w)
    (hmask : maskHas m l = true) (hout : maskHas w l = false) (hexecuting : s.cmu.executing = some r) :
    s.swapWaiting l = true ∧
      (w ||| laneBit l ≠ m → s.swapLane l =
        { s.modLane l (tableTaken s.rtu.staged l) with rtu := { s.rtu with commit := .swapping m (w ||| laneBit l) } }) ∧
      (w ||| laneBit l = m → s.swapLane l =
        { s.modLane l (tableTaken s.rtu.staged l) with
          rtu := { s.rtu with commit := .idle }
          cmu := { s.cmu with executing := none }
          rwu := s.rwu.enqueue (.commandDone r.code r.laneField r.seq .ok (BitVec.ofNat 32 m.toNat)) }) := by
  have hwaiting : s.swapWaiting l = true := by simp only [State.swapWaiting, hcommit, hmask, hout]; rfl
  have hstep := swapLane_of_waiting hcommit hwaiting
  refine ⟨hwaiting, fun hmore => ?_, fun hlast => ?_⟩
  · rw [hstep, if_neg hmore]
    rfl
  · have hexec : (s.modLane l fun x => x.takeTable s.rtu.staged l).cmu.executing = some r := by rw [modLane_cmu, hexecuting]
    rw [hstep, if_pos hlast, endCommit_eq hexec, setWidth_eq_ofNat, modLane_rtu, modLane_cmu, modLane_rwu]
    rfl

/-! ### The row in RUN and DRAIN -/

theorem exec_laneSwap_sorting {s : State} (hs : s.Settled) (n : Nat) {l : LaneId} (hsorting : (s.lane l).mode.sorting = true) :
    exec (.laneSwap n l) s =
      if s.swapWaiting l = true ∧ s.atSwapPoint l = true then exec (.entryLeavesFifo n) s else .next (s.pass n) :=
  execLaneSwap_of_settled n hs hsorting

/-! ### The row outside RUN and DRAIN -/

theorem settleDrain_of_not_found {s : State} {l : LaneId} (h : (s.lane l).mode = .drain → (s.lane l).drainDue = false) :
    s.settleDrain l = s := by
  rw [State.settleDrain, if_neg]
  rintro ⟨hdrain, hdue⟩
  rw [h hdrain] at hdue
  cases hdue

theorem settleCapture_of_no_wait {s : State} (h : s.cmu.captureWait = none) : s.settleCapture = s := by
  rw [State.settleCapture, h]

theorem completeCommand_cmu (s : State) (c : CommandStatus) (d : Word) :
    (s.completeCommand c d).cmu = { s.cmu with executing := none } := by
  cases hexecuting : s.cmu.executing with
  | none =>
    simp only [State.completeCommand, hexecuting]
    rw [← hexecuting]
  | some r => rw [completeCommand_eq hexecuting]

theorem endCommit_cmu (s : State) (c : CommandStatus) (d : Word) : (s.endCommit c d).cmu = { s.cmu with executing := none } :=
  completeCommand_cmu _ c d

theorem swapLane_captureWait (s : State) (l : LaneId) : (s.swapLane l).cmu.captureWait = s.cmu.captureWait := by
  cases hw : s.swapWaiting l with
  | false => rw [swapLane_of_not_waiting hw]
  | true =>
    obtain ⟨m, w, hcommit⟩ := swapping_of_swapWaiting hw
    rw [swapLane_of_waiting hcommit hw]
    split
    · rw [endCommit_cmu, modLane_cmu]
    · cases l <;> rfl

/-- A swap makes no lane wait. -/
theorem swapWaiting_of_swapLane {s : State} {l k : LaneId} (h : s.swapWaiting k = false) : (s.swapLane l).swapWaiting k = false := by
  rcases eq_or_eq_other k l with rfl | rfl
  · exact swapWaiting_swapLane s k
  · cases hw : s.swapWaiting l with
    | false => rwa [swapLane_of_not_waiting hw]
    | true =>
      obtain ⟨m, w, hcommit⟩ := swapping_of_swapWaiting hw
      rw [State.swapWaiting, hcommit] at h
      rw [swapLane_of_waiting hcommit hw]
      split
      · rw [State.swapWaiting, endCommit_rtu]
      · simp only [State.swapWaiting, maskHas_or_laneBit_other]
        exact h

theorem swapLane_lane_mode (s : State) (l k : LaneId) :
    ((s.swapLane l).lane k).mode = (s.lane k).mode ∧ ((s.swapLane l).lane k).drainDue = (s.lane k).drainDue := by
  rcases eq_or_eq_other k l with rfl | rfl
  · rcases swapLane_cases s k with h | h <;> rw [h] <;> exact ⟨rfl, rfl⟩
  · rw [(worked_swapLane s (Set.mem_singleton l)).other _ (other_lane_ne l)]
    exact ⟨rfl, rfl⟩

theorem settleSwap_swapLane (s : State) (l : LaneId) : (s.swapLane l).settleSwap l = s.swapLane l := by
  rw [State.settleSwap]
  split
  · rfl
  · exact swapLane_of_not_waiting (swapWaiting_swapLane s l)

/-- What a waiting lane outside RUN and DRAIN owes is its swap. -/
theorem settle_swapLane {s : State} {l : LaneId} (hout : (s.lane l).mode.sorting = false) (hwait : s.cmu.captureWait = none)
    (hdue : ∀ k, (s.lane k).mode = .drain → (s.lane k).drainDue = false)
    (hother : (s.lane l.other).mode.sorting = true ∨ s.swapWaiting l.other = false) : (s.swapLane l).settle = s.settle := by
  have hswap : s.settleSwap l = s.swapLane l := by rw [State.settleSwap, hout, if_neg Bool.false_ne_true]
  have hsettle {t : State} (ht : t.cmu.captureWait = none) (hd : ∀ k, (t.lane k).mode = .drain → (t.lane k).drainDue = false) :
      t.settle = ((t.settleSwap .lane0).settleSwap .lane1).finishCommands := by
    rw [State.settle, settleCapture_of_no_wait ht, settleDrain_of_not_found (hd .lane0), settleDrain_of_not_found (hd .lane1)]
  have hstays {t : State} {k : LaneId} (h : (t.lane k).mode.sorting = true ∨ t.swapWaiting k = false) : t.settleSwap k = t := by
    rw [State.settleSwap]
    split
    · rfl
    · rename_i hnot
      exact swapLane_of_not_waiting (h.resolve_left hnot)
  have hother' : ((s.swapLane l).lane l.other).mode.sorting = true ∨ (s.swapLane l).swapWaiting l.other = false := by
    rw [(swapLane_lane_mode s l l.other).1]
    exact hother.imp_right swapWaiting_of_swapLane
  have hsame := settleSwap_swapLane s l
  rw [hsettle hwait hdue, hsettle ((swapLane_captureWait s l).trans hwait) fun k => by
    rw [(swapLane_lane_mode s l k).1, (swapLane_lane_mode s l k).2]; exact hdue k]
  cases l with
  | lane0 => rw [hsame, hswap]
  | lane1 => rw [hstays (k := .lane0) hother', hsame, hstays (k := .lane0) hother, hswap]

/-- But for the rows that name what the last event owes, a command looks at what is left when that is settled. -/
theorem exec_congr_settle {s t : State} (h : t.settle = s.settle) {c : Instr}
    (hc : (∀ n k, c ≠ .laneSwap n k ∧ c ≠ .drainCondition n k) ∧ ∀ n, c ≠ .captureSnapshot n) : exec c t = exec c s := by
  have hbegin (n : Nat) : t.begin n = s.begin n := by rw [State.begin, State.begin, h]
  cases c with
  | laneSwap n k => exact absurd rfl (hc.1 n k).1
  | drainCondition n k => exact absurd rfl (hc.1 n k).2
  | captureSnapshot n => exact absurd rfl (hc.2 n)
  | _ =>
    simp only [exec, execPor, execPorRelease, execCrstn, execCrstnRelease, execUPortRead, execUPortWrite,
      execArgumentWordWrite, execConsumerIndexWrite, execStagingWrite, execScanRingWrite, execLaneStart, execLaneHold,
      execLaneResume, execLaneStop, execTableCommit, execValveTest, execStatsSnapshot, execCaptureState, execBadCommand,
      execEntryLeavesFifo, execStallLimit, execTriggerEdge, execTick, execCoastDeadline, execSyntheticLineStart,
      execBoostTimer, execCarrierPeriod, execMaxOnGuard, execRecoveryEnd, execTestDurationEnd, execSupplyDrop,
      execSupplyReturn, execScanEnd, execWriterUnitChoice, execWriterWordHanded, execSportArbitration,
      execControllerAccessDone, execPartWriteDone, hbegin]

/-- Settles O54: the fields, the swap by its mask, the row by the judgement of the FIFO's head, and what is owed outside RUN and
DRAIN. -/
theorem laneSwapCopiesStagedBank : Obligations.LaneSwapCopiesStagedBank := by
  refine ⟨fun bank l a p b ha hp hb => readTable_fields ha hp hb,
    fun s l => ⟨swapLane_of_not_waiting, fun m w r hcommit hmask hout hexecuting => swapLane_of_bits hcommit hmask hout hexecuting⟩,
    fun s n l hs hmode => ?_, fun s n l hout hslot hwait hdue => ?_⟩
  · have hsorting : (s.lane l).mode.sorting = true := by rcases hmode with h | h <;> rw [h] <;> rfl
    have hrow := exec_laneSwap_sorting hs n hsorting
    refine ⟨fun hw => by rw [hrow, if_neg (by simp [hw])], fun hempty => ?_, fun e rest k slot w hw hfifo hw' hat => ?_⟩
    · have hnot : s.atSwapPoint l = false := by rw [State.atSwapPoint, hempty]
      rw [hrow, if_neg (by simp [hnot])]
    · have hiff := atSwapPoint_iff hfifo hsorting hat hw'
      have htaken (hbrings : bringsSwap (s.lane l) l e) : exec (.laneSwap n l) s = exec (.entryLeavesFifo n) s := by
        rw [hrow, if_pos ⟨hw, hiff.2 hbrings⟩]
      refine ⟨fun hnot => by rw [hrow, if_neg (fun h => hnot (hiff.1 h.2))], htaken, fun h m haccepted hassembly hstall hslot => ?_⟩
      rw [htaken (.inl ⟨_, h, m, haccepted⟩)]
      obtain ⟨hat0, hbe, hdata, d, hd, hnear, hm, hnot⟩ := haccepted
      have hjudged := headerJudgedByDistance s n l _ h e rest d m hs hfifo hstall hat0 hbe hdata hassembly (fun _ => hslot) hd hm
        (by tauto)
      exact (hjudged.2.2 hnear hnot).2 (by rcases hmode with h | h <;> rw [h] <;> decide)
  · refine ⟨?_, fun hother c hc hcapture => (exec_congr_settle (settle_swapLane hout hwait hdue hother) ⟨hc, hcapture⟩).symm⟩
    have hswapped : ((s.pass n).swapLane l).cmu.slot = none :=
      (worked_swapLane (s.pass n) (Set.mem_singleton l)).slot.trans (slot_pass hslot n)
    have hrow : exec (.laneSwap n l) s = .next ((s.pass n).swapLane l).finishCommands := by
      show execLaneSwap n l s = _
      rw [execLaneSwap, settleCapture_of_no_wait hwait, settleDrain_of_not_found (hdue .lane0),
        settleDrain_of_not_found (hdue .lane1)]
      rw [hout, if_neg Bool.false_ne_true, State.swapOutside]
    rw [hrow, finishCommands_same fun _ => hswapped]

end Sys2Proof.Machine

/-! ## Proofs: the drain condition found (O55) -/
namespace Sys2Proof.Machine

/-- A lane in FAULT, where no clock should run, whose clock coasts with a synthetic time due and which holds a drain condition
found earlier. No premise of O55's third clause shuts it out. -/
def foundInFault : State :=
  { State.reset with
    porAsserted := false
    lane0 :=
      { State.reset.lane0 with
        mode := .fault, drainDue := true, clock := { State.reset.lane0.clock with state := .coasting, nextSynthetic := some 0 } } }

theorem foundInFault_loses : exec (.syntheticLineStart 0 .lane0) foundInFault = .next ((foundInFault.pass 0).loseClock .lane0) := rfl

/-- The loss of the clock enters FAULT again: the mode is as before, and nothing is left found. -/
theorem loseClock_foundInFault :
    (((foundInFault.pass 0).loseClock .lane0).lane .lane0).mode = .fault ∧
      (((foundInFault.pass 0).loseClock .lane0).lane .lane0).drainDue = false := by
  constructor
  · rfl
  · rfl

/-- Refutes O55: a loss of the clock in FAULT keeps the mode and clears the drain condition that was found. -/
theorem not_drainConditionEntersHold : ¬ Obligations.DrainConditionEntersHold := by
  intro h
  obtain ⟨-, -, hclock, -⟩ := h
  obtain ⟨hmode, hdue⟩ := loseClock_foundInFault
  have hleft := hclock foundInFault _ 0 .lane0 (by decide) rfl rfl (.syntheticLineStart 0 .lane0) (by simp) foundInFault_loses
  have hsame : (foundInFault.lane .lane0).mode = .fault := rfl
  have hfound : (foundInFault.lane .lane0).drainDue = true := rfl
  rw [hdue, hmode, hsame, if_pos rfl, drainFoundAfterLines, hsame, if_neg (by simp), hfound] at hleft
  cases hleft

end Sys2Proof.Machine

/-! ## Proofs: the span, the window and the firings of a reject, and the overflow policies (O41) -/
namespace Sys2Proof.Machine

/-! ### The span -/

/-- The last of the first `n` numbers that has a property is what the walk over them keeps. -/
theorem foldl_last_eq {p : Nat → Prop} [DecidablePred p] {n v : Nat} (hv : v < n) (hp : p v) (hlast : ∀ u, v < u → u < n → ¬p u)
    (start : Nat) : (List.range n).foldl (fun best u => if p u then u else best) start = v := by
  induction n with
  | zero => omega
  | succ n ih =>
    rw [List.range_succ, List.foldl_concat]
    by_cases hn : v = n
    · rw [if_pos (hn ▸ hp), hn]
    · rw [if_neg (hlast n (by omega) (by omega)), ih (by omega) fun u hu hun => hlast u hu (by omega)]

theorem valveOfColumn_lt (b : Vector Nat 64) (c : Nat) : valveOfColumn b c < 64 := by
  have hfold (n : Nat) (hn : n ≤ 64) : (List.range n).foldl (fun best v => if b[v]?.getD 0 ≤ c then v else best) 0 < 64 := by
    induction n with
    | zero => exact Nat.succ_pos 63
    | succ n ih =>
      rw [List.range_succ, List.foldl_concat]
      split
      · exact hn
      · exact ih (by omega)
  exact hfold 64 le_rfl

/-- The valve that covers a column is the one the model finds (R67). -/
theorem valveOfColumn_of_covers {t : ActiveTable} {v : Fin 64} {c : Nat} (h : covers t v c) :
    valveOfColumn t.boundaries c = v.val := by
  obtain ⟨hown, hlater⟩ := h
  refine foldl_last_eq v.isLt ?_ (fun u hu hu' => ?_) 0
  · simpa using hown
  · simpa [hu'] using hlater ⟨u, hu'⟩ hu

theorem valveSpan_bounds {t : ActiveTable} {cmin cmax : Nat} {p : ValveSpan} (h : valveSpan t cmin cmax = some p) :
    1 ≤ p.planned ∧ p.planned ≤ 4 ∧ p.first + p.planned ≤ 64 ∧ (p.wide = true → p.planned = 4) := by
  unfold valveSpan at h
  dsimp only at h
  have hlo := valveOfColumn_lt t.boundaries (max (cmin - t.block.margin) t.boundaries[0])
  have hhi := valveOfColumn_lt t.boundaries (min (cmax + t.block.margin) 1023)
  split at h
  · cases h
  · split at h
    · obtain rfl := Option.some.inj h
      dsimp only
      exact ⟨by omega, by omega, by omega, fun hw => by cases hw⟩
    · obtain rfl := Option.some.inj h
      dsimp only
      exact ⟨by omega, by omega, by omega, fun _ => rfl⟩

section
variable {t : ActiveTable} {cmin cmax lo hi : Nat} (hhi : hi = min (cmax + t.block.margin) 1023)
include hhi

theorem valveSpan_of_left (h : hi < t.boundaries[0]) : valveSpan t cmin cmax = none := by
  unfold valveSpan
  dsimp only
  rw [← hhi, if_pos h]

theorem valveSpan_of_covers (hlo : (lo : Int) = max ((cmin : Int) - t.block.margin) t.boundaries[0]) {vlo vhi : Fin 64} (h : t.boundaries[0] ≤ hi) (hvlo : covers t vlo lo) (hvhi : covers t vhi hi) :
    valveSpan t cmin cmax =
      if vhi.val - vlo.val + 1 ≤ 4 then some ⟨vlo.val, vhi.val - vlo.val + 1, false⟩
      else some ⟨vlo.val + (vhi.val - vlo.val + 1 - 4) / 2, 4, true⟩ := by
  have hlo' : max (cmin - t.block.margin) t.boundaries[0] = lo := by omega
  unfold valveSpan
  dsimp only
  rw [← hhi, if_neg (Nat.not_lt.2 h), hlo', valveOfColumn_of_covers hvlo, valveOfColumn_of_covers hvhi]

end

/-! ### Window and lateness -/

theorem window_eq (x : Lane) (a b : LineNo) {o c : TickTime} {most : Nat}
    (ho : o = BitVec.ofNat 36 (a.toNat * 16) + BitVec.ofNat 36 x.block.flightDelay - BitVec.ofNat 36 x.block.lead)
    (hc : c = BitVec.ofNat 36 ((b.toNat + 1) * 16) + BitVec.ofNat 36 x.block.flightDelay + BitVec.ofNat 36 x.block.lag)
    (hmost : most = x.block.maxOnUs * 800 / (x.clock.pq / 16)) :
    x.window a b = if (c - o).toInt > most then ⟨o, o + BitVec.ofNat 36 most, true⟩ else ⟨o, c, false⟩ := by
  have hmost' : x.maxOnTicks = most := hmost.symm
  have ho' : tickTime a 0 + BitVec.ofNat 36 x.block.flightDelay - BitVec.ofNat 36 x.block.lead = o := ho.symm
  have hc' : tickTime b 16 + BitVec.ofNat 36 (x.block.flightDelay + x.block.lag) = c := by
    rw [hc, tickTime, BitVec.ofNat_add (x := x.block.flightDelay), ← add_assoc, Nat.succ_mul]
  unfold Lane.window
  dsimp only
  rw [ho', hc', hmost']
  rfl

theorem tickLt_iff (a b : TickTime) : tickLt a b = true ↔ (a - b).toInt < 0 := decide_eq_true_iff

theorem tickLe_iff (a b : TickTime) : tickLe a b = true ↔ (a - b).toInt ≤ 0 := decide_eq_true_iff

theorem lateness_eq (tnow : TickTime) (w : Window) :
    lateness tnow w =
      if (tnow - w.opens).toInt < 0 then .stands
      else if 4 ≤ (w.closes - (tnow + 1)).toInt then .truncated else .late := by
  unfold lateness
  by_cases hstands : (tnow - w.opens).toInt < 0
  · rw [if_pos hstands, if_pos ((tickLt_iff _ _).2 hstands)]
  · rw [if_neg hstands, if_neg (mt (tickLt_iff _ _).1 hstands)]
    rfl

/-! ### The firings of a reject -/

theorem place_missed_ne {x : Lane} {n : Firing} {r : MissReason} (h : (x.place n).2 = .missed r) : r ≠ .noMiss := by
  have hmiss : (x.placeFiring n).2 = .missed r := by
    unfold Lane.place at h
    split at h
    · cases h
    · rename_i heq
      rw [heq]
      exact h
  rcases placeFiring_missed hmiss with rfl | rfl <;> decide

theorem placedInTurn_length (n : Firing) (vs : List (Fin 64)) (x : Lane) : (placedInTurn n vs x).2.length = vs.length := by
  induction vs generalizing x with
  | nil => rfl
  | cons v vs ih => exact congrArg (· + 1) (ih _)

/-- The tally kept while firings are handed is that of their answers in turn (R74). -/
theorem foldl_handFiring (n : Firing) (vs : List (Fin 64)) (x : Lane) (t : FiringTally) :
    (vs.map Fin.val).foldl (handFiring n) (x, t) =
      ((placedInTurn n vs x).1,
        { scheduled := t.scheduled + (placedInTurn n vs x).2.count .scheduled
          missed := t.missed + (vs.length - (placedInTurn n vs x).2.count .scheduled)
          firstMiss := if t.firstMiss = .noMiss then firstMissed (placedInTurn n vs x).2 else t.firstMiss }) := by
  induction vs generalizing x t with
  | nil =>
    by_cases hfirst : t.firstMiss = .noMiss
    · simp [placedInTurn, firstMissed, ← hfirst]
    · simp [placedInTurn, hfirst]
  | cons v vs ih =>
    have hvalve : (Fin.ofNat 64 v.val) = v := by simp
    rcases hplace : x.place { n with valve := v } with ⟨y, a⟩
    have hturn : placedInTurn n (v :: vs) x = ((placedInTurn n vs y).1, a :: (placedInTurn n vs y).2) := by
      simp only [placedInTurn, hplace]
    have hcount : (placedInTurn n vs y).2.count .scheduled ≤ vs.length := by
      rw [← placedInTurn_length n vs y]
      exact List.count_le_length
    rw [List.map_cons, List.foldl_cons, hturn]
    cases a with
    | scheduled =>
      have hone : handFiring n (x, t) v.val = (y, { t with scheduled := t.scheduled + 1 }) := by
        simp only [handFiring, hvalve, hplace]
      rw [hone, ih, List.count_cons_self, List.length_cons]
      simp only [firstMissed, Prod.mk.injEq, FiringTally.mk.injEq, and_true, true_and]
      omega
    | missed r =>
      have hne : r ≠ .noMiss := place_missed_ne (x := x) (n := { n with valve := v }) (by rw [hplace])
      have hone : handFiring n (x, t) v.val =
          (y, { t with missed := t.missed + 1, firstMiss := if t.firstMiss = .noMiss then r else t.firstMiss }) := by
        simp only [handFiring, hvalve, hplace]
      have hfirst : (if (if t.firstMiss = .noMiss then r else t.firstMiss) = .noMiss then firstMissed (placedInTurn n vs y).2
          else if t.firstMiss = .noMiss then r else t.firstMiss) = if t.firstMiss = .noMiss then r else t.firstMiss := by
        by_cases h : t.firstMiss = .noMiss
        · rw [if_pos h, if_neg hne]
        · rw [if_neg h, if_neg h]
      rw [hone, ih, List.count_cons_of_ne (by simp), List.length_cons]
      simp only [firstMissed, Prod.mk.injEq, FiringTally.mk.injEq, true_and]
      exact ⟨by omega, hfirst⟩

theorem handFirings_eq {x : Lane} {p : ValveSpan} {n : Firing} {vs : List (Fin 64)} {r : Lane × List PlaceAnswer}
    (hvs : vs.map Fin.val = (List.range p.planned).map (p.first + ·)) (hr : r = placedInTurn n vs x) :
    x.handFirings p n = (r.1, ⟨r.2.count .scheduled, p.planned - r.2.count .scheduled, firstMissed r.2⟩) := by
  have hlength : vs.length = p.planned := by simpa using congrArg List.length hvs
  rw [Lane.handFirings, ← hvs, foldl_handFiring, hr, hlength, if_pos rfl]
  simp only [Nat.zero_add]

/-! ### A reject -/

section
variable {x : Lane} {cmin cmax : Nat} {a b : LineNo} {w : Window} {tnow : TickTime} (hw : w = x.window a b)
  (htnow : tnow = tickTime x.clock.ln x.clock.k)
include hw

theorem ejectSpan_of_none (hspan : valveSpan x.activeTable cmin cmax = none) :
    x.ejectSpan cmin cmax a b = (x.countMissed .noValve 1, ⟨0, 0, false, w, false, ⟨0, 0, .noValve⟩⟩) := by
  subst hw
  simp only [Lane.ejectSpan, hspan]

variable {p : ValveSpan} (hspan : valveSpan x.activeTable cmin cmax = some p)
include htnow hspan

theorem ejectSpan_of_late (hlate : lateness tnow w = .late) :
    x.ejectSpan cmin cmax a b = (x.countMissed .late p.planned, ⟨p.planned, p.first, p.wide, w, false, ⟨0, p.planned, .late⟩⟩) := by
  subst hw htnow
  have hlate' : lateness x.clock.tnow (x.window a b) = .late := hlate
  simp only [Lane.ejectSpan, hspan, hlate']

/-- A window that stands or is truncated: the firings of the span's valves, one after another (R72 to R74). -/
theorem ejectSpan_of_taken {o : TickTime} {cut : Bool} {vs : List (Fin 64)} {r : Lane × List PlaceAnswer}
    (htaken : lateness tnow w = .stands ∧ o = w.opens ∧ cut = false ∨ lateness tnow w = .truncated ∧ o = tnow + 1 ∧ cut = true)
    (hvs : vs.map Fin.val = (List.range p.planned).map (p.first + ·))
    (hr : r = placedInTurn { valve := 0, openTick := o, closeTick := w.closes, tag := a, truncated := cut, clamped := w.clamped } vs x) :
    x.ejectSpan cmin cmax a b =
      (r.1, ⟨p.planned, p.first, p.wide, { w with opens := o }, cut,
        ⟨r.2.count .scheduled, p.planned - r.2.count .scheduled, firstMissed r.2⟩⟩) := by
  have hhanded := handFirings_eq hvs hr
  subst hw htnow
  rcases htaken with ⟨hstands, rfl, rfl⟩ | ⟨htruncated, rfl, rfl⟩
  · have hstands' : lateness x.clock.tnow (x.window a b) = .stands := hstands
    simp only [Lane.ejectSpan, hspan, hstands', hhanded]
  · have htruncated' : lateness x.clock.tnow (x.window a b) = .truncated := htruncated
    simp only [Lane.ejectSpan, hspan, htruncated']
    rw [show x.clock.tnow + 1 = tickTime x.clock.ln x.clock.k + 1 from rfl, hhanded]

end

theorem gradeObject_of_kept {x y : Lane} {l : LaneId} {o : OpenObject}
    (hy : y = x.count fun c => ({ c with objectsClosed := c.objectsClosed + 1 } : Counters).decision (decideObject x.grade o))
    (h : decideObject x.grade o = .accept ∨ decideObject x.grade o = .fragment) : x.gradeObject l o = (y, []) := by
  subst hy
  rcases h with h | h <;> simp only [Lane.gradeObject, h]

theorem gradeObject_of_reject {x y : Lane} {l : LaneId} {o : OpenObject} {reason : RejectReason} {r : Lane × RejectOutcome}
    (hy : y = x.count fun c => ({ c with objectsClosed := c.objectsClosed + 1 } : Counters).decision (decideObject x.grade o))
    (h : decideObject x.grade o = .reject reason) (hr : r = y.ejectSpan o.cmin o.cmax o.firstLine o.lastLine) :
    x.gradeObject l o = (r.1, [.objectRejected l (rejectReport o reason r.2)]) := by
  subst hy hr
  simp only [Lane.gradeObject, h]

/-! ### Untracked runs -/

theorem foldl_length (rs : List LineRun) (n : Nat) :
    rs.foldl (fun n q => n + q.length) n = n + (rs.map fun q => q.last - q.first + 1).sum := by
  induction rs generalizing n with
  | nil => rfl
  | cons r rs ih => rw [List.foldl_cons, ih, List.map_cons, List.sum_cons, LineRun.length, Nat.add_assoc]

theorem overflowRuns_eq {x y : Lane} {l : LaneId} {line : LineNo} {first last : LineRun} {runs : List LineRun} {columns : Nat}
    (hfirst : runs.head? = some first) (hlast : runs.getLast? = some last)
    (hcolumns : columns = (runs.map fun q => q.last - q.first + 1).sum)
    (hy : y = x.count fun c => { c with untrackedRuns := c.untrackedRuns + BitVec.ofNat 32 runs.length }) :
    x.overflowRuns l line runs =
      (if x.grade.overflowPolicy = 1 then runs.foldl (fun z q => (z.ejectSpan q.first q.last line line).1) y else y,
        [.overflowRun l line (x.grade.overflowPolicy == 1) runs.length first.first last.last columns]) := by
  obtain ⟨rs, rfl⟩ : ∃ rs, runs = first :: rs := by
    cases runs with
    | nil => cases hfirst
    | cons r rs =>
      obtain rfl := Option.some.inj hfirst
      exact ⟨rs, rfl⟩
  have hend : rs.getLastD first = last := by
    rw [List.getLast?_cons] at hlast
    rw [List.getLastD_eq_getLast?]
    exact Option.some.inj hlast
  have hsum := foldl_length (first :: rs) 0
  rw [Nat.zero_add, ← hcolumns] at hsum
  subst hy
  unfold Lane.overflowRuns
  dsimp only
  rw [hend, hsum]
  by_cases hpolicy : x.grade.overflowPolicy = 1
  · rw [if_pos hpolicy, if_pos (by simpa using hpolicy)]
    rfl
  · rw [if_neg hpolicy, if_neg (by simpa using hpolicy)]

/-- Settles O41: each part by the lemma about its function of the model. -/
theorem rejectSpanAndWindow : Obligations.RejectSpanAndWindow := by
  refine ⟨fun t cmin cmax p _ h => valveSpan_bounds h, fun t cmin cmax lo hi _ hle hmax hlo hhi => ?_,
    fun x a b o c most ho hc hmost => ?_, fun tnow w => ?_, fun x cmin cmax a b w tnow _ hw htnow => ?_,
    fun x y l o hy => ?_, fun x y l line first last runs columns => ?_⟩
  · refine ⟨valveSpan_of_left hhi, fun vlo vhi hinside hvlo hvhi => ?_⟩
    have hspan := valveSpan_of_covers hhi hlo hinside hvlo hvhi
    refine ⟨?_, fun h => by rw [hspan, if_pos h], fun h => by rw [hspan, if_neg (Nat.not_le.2 h)]⟩
    by_contra hlt
    have hafter := hvhi.2 vlo (not_le.1 hlt)
    have hbefore := hvlo.1
    omega
  · have hwindow := window_eq x a b ho hc hmost
    exact ⟨fun h => by rw [hwindow, if_neg (by omega)], fun h => by rw [hwindow, if_pos h]⟩
  · rw [lateness_eq]
    exact ⟨fun h => if_pos h, fun h h4 => by rw [if_neg (Int.not_lt.2 h), if_pos h4],
      fun h h4 => by rw [if_neg (Int.not_lt.2 h), if_neg (Int.not_le.2 h4)]⟩
  · exact ⟨ejectSpan_of_none hw, fun p hspan => ⟨ejectSpan_of_late hw htnow hspan,
      fun o cut vs r htaken hvs hr => ejectSpan_of_taken hw htnow hspan htaken hvs hr⟩⟩
  · exact ⟨gradeObject_of_kept hy, fun reason r h hr => gradeObject_of_reject hy h hr⟩
  · refine ⟨rfl, fun hfirst hlast hcolumns hy => ?_⟩
    have hruns := overflowRuns_eq (l := l) (line := line) hfirst hlast hcolumns hy
    exact ⟨fun hnot => by rw [hruns, if_neg hnot, beq_eq_false_iff_ne.2 hnot], fun h => by rw [hruns, if_pos h, h]; rfl⟩

end Sys2Proof.Machine

/-! ## Proofs: the placement of a firing against its valve's latest window (O42) -/
namespace Sys2Proof.Machine

/-! ### The queue -/

theorem replaceLast_append {w : Firing} (f : Firing) (before : List Firing) {behind : List Firing}
    (h : ∀ g ∈ behind, g.valve ≠ w.valve) :
    replaceLast w.valve f (before ++ w :: behind) = before ++ f :: behind ∧
      removeLast w.valve (before ++ w :: behind) = before ++ behind := by
  induction before with
  | nil => simp_all [replaceLast, removeLast]
  | cons g before ih =>
    obtain ⟨hreplace, hremove⟩ := ih
    simp [replaceLast, removeLast, hreplace, hremove]

theorem insertFiring_split (f : Firing) (q : List Firing) :
    ∃ before behind, q = before ++ behind ∧ insertFiring f q = before ++ f :: behind ∧
      (∀ g ∈ before, firingBefore f g = false) ∧ ∀ g, behind.head? = some g → firingBefore f g = true := by
  induction q with
  | nil => exact ⟨[], [], rfl, rfl, by simp, by simp⟩
  | cons g gs ih =>
    by_cases hbefore : firingBefore f g = true
    · exact ⟨[], g :: gs, rfl, by rw [insertFiring, if_pos hbefore]; rfl, by simp, by simp [hbefore]⟩
    · obtain ⟨before, behind, hq, hinsert, hkept, hhead⟩ := ih
      refine ⟨g :: before, behind, by rw [hq]; rfl, by rw [insertFiring, if_neg hbefore, hinsert]; rfl, ?_, hhead⟩
      intro k hk
      rcases List.mem_cons.1 hk with rfl | hk
      · simpa using hbefore
      · exact hkept k hk

/-! ### What a placement comes to -/

section
variable {x : Lane} {n : Firing}

theorem place_of_missed {r : MissReason} (h : x.placeFiring n = (x, .missed r)) : x.place n = (x.countMissed r 1, .missed r) := by
  simp only [Lane.place, h]

theorem place_of_scheduled {y : Lane} (h : x.placeFiring n = (y, .scheduled)) : x.place n = (y, .scheduled) := by
  simp only [Lane.place, h]

theorem placedAsEntry_of {m : Firing} (h : x.placeFiring n = x.addEntry m) : placedAsEntry x n m := by
  refine ⟨fun hroom => place_of_scheduled ?_, fun hfull => place_of_missed ?_⟩
  · rw [h, Lane.addEntry, if_pos (show x.firings.length < Config.firingPlaces from hroom)]
  · rw [h, Lane.addEntry, if_neg (show ¬ x.firings.length < Config.firingPlaces from Nat.not_lt.2 hfull)]

/-- The close of a joined window, and whether it was shortened (R82). -/
theorem joinedClose_eq (wClose nClose limit : TickTime) {raw c : TickTime} (hraw : raw = tickMax wClose nClose)
    (hc : c = if (limit - raw).toInt < 0 then tickMax wClose limit else raw) : joinedClose wClose nClose limit = (c, c != raw) := by
  unfold joinedClose
  dsimp only
  rw [← hraw]
  by_cases hcut : (limit - raw).toInt < 0
  · rw [if_pos hcut] at hc
    rw [if_pos ((tickLt_iff _ _).2 hcut), hc]
  · rw [if_neg hcut] at hc
    rw [if_neg (mt (tickLt_iff _ _).1 hcut), hc, bne_self_eq_false]

theorem joinLater_eq (most : Nat) {w : Firing} {raw c : TickTime} (hraw : raw = tickMax w.closeTick n.closeTick)
    (hc : c = if (w.openTick + BitVec.ofNat 36 most - raw).toInt < 0 then tickMax w.closeTick (w.openTick + BitVec.ofNat 36 most)
      else raw) :
    joinLater most w n =
      if (c - (n.openTick + 4)).toInt < 0 then none
      else some { w with closeTick := c, joined := min (w.joined + 1) 255, clamped := w.clamped || c != raw } := by
  have hclose := joinedClose_eq w.closeTick n.closeTick (tickAdd w.openTick most) hraw hc
  simp only [joinLater, hclose, tickLt_iff]
  rfl

theorem joinedOrRested_of {w : Firing} {put : Firing → Lane} (h : x.placeFiring n = x.placeAfter w n put) :
    joinedOrRested x w n put := by
  refine ⟨fun hpast => placedAsEntry_of ?_, fun raw c hraw hc hreach => ?_⟩
  · have hout : ¬ tickLe n.openTick (tickAdd w.closeTick x.recTicks) = true := mt (tickLe_iff _ _).1 (Int.not_le.2 hpast)
    rw [h, Lane.placeAfter, if_neg hout]
  · have hin : tickLe n.openTick (tickAdd w.closeTick x.recTicks) = true := (tickLe_iff _ _).2 hreach
    have hjoin := joinLater_eq x.maxOnTicks hraw hc
    refine ⟨fun hbusy => place_of_missed ?_, fun hroom => place_of_scheduled ?_⟩
    · rw [if_pos hbusy] at hjoin
      rw [h, Lane.placeAfter, if_pos hin, hjoin]
    · rw [if_neg (Int.not_lt.2 hroom)] at hjoin
      rw [h, Lane.placeAfter, if_pos hin, hjoin]

/-! ### The latest window -/

theorem joinEarlier_eq (most : Nat) {w : Firing} {bound opens raw limit : TickTime} (hopens : opens = tickMax n.openTick bound)
    (hraw : raw = tickMax w.closeTick n.closeTick) (hlimit : limit = opens + BitVec.ofNat 36 most) :
    joinEarlier most bound w n =
      if (n.closeTick - (bound + 4)).toInt < 0 then none
      else some
        { w with
          openTick := opens, closeTick := if (limit - raw).toInt < 0 then limit else raw
          joined := min (w.joined + 1) 255, clamped := w.clamped || decide ((limit - raw).toInt < 0)
          delayed := w.delayed || decide ((n.openTick - bound).toInt < 0) } := by
  subst hopens hraw hlimit
  simp only [joinEarlier, tickLt_iff]
  rfl

theorem openBound_eq (x : Lane) {v : Fin 64} {pre : List Firing} {w : Firing} (h : entriesOf v x.firings = pre ++ [w]) :
    x.openBound v = earliestOpen x v pre.getLast? := by
  unfold Lane.openBound earliestOpen
  rw [h, List.dropLast_concat]
  cases pre.getLast? with
  | some f => rfl
  | none =>
    cases (x.valve v).pending with
    | some f => rfl
    | none =>
      cases (x.valve v).firingOpen with
      | some f => rfl
      | none =>
        cases (x.valve v).phase with
        | recover b r e => cases e <;> rfl
        | _ => rfl

variable {v : Fin 64} (hv : v = n.valve)
include hv

theorem placeFiring_of_queued {pre : List Firing} {w : Firing} (h : entriesOf v x.firings = pre ++ [w]) :
    (0 ≤ (n.openTick - w.openTick).toInt →
      x.placeFiring n = x.placeAfter w n fun w' => { x with firings := replaceLast v w' x.firings }) ∧
    ∀ (bound opens raw limit : TickTime), (n.openTick - w.openTick).toInt < 0 → bound = earliestOpen x v pre.getLast? →
      opens = tickMax n.openTick bound → raw = tickMax w.closeTick n.closeTick →
      limit = opens + BitVec.ofNat 36 x.maxOnTicks →
      ((n.closeTick - (bound + 4)).toInt < 0 → x.placeFiring n = (x, .missed .valveBusy)) ∧
      (0 ≤ (n.closeTick - (bound + 4)).toInt →
        x.placeFiring n =
          ({ x with
            firings := insertFiring
              { w with
                openTick := opens, closeTick := if (limit - raw).toInt < 0 then limit else raw
                joined := min (w.joined + 1) 255, clamped := w.clamped || decide ((limit - raw).toInt < 0)
                delayed := w.delayed || decide ((n.openTick - bound).toInt < 0) }
              (removeLast v x.firings) },
            .scheduled)) := by
  have hwindow : x.latestWindow v = .queued w := by simp only [Lane.latestWindow, h, List.getLast?_concat]
  subst hv
  refine ⟨fun hafter => ?_, fun bound opens raw limit hbefore hbound hopens hraw hlimit => ?_⟩
  · simp only [Lane.placeFiring, hwindow]
    rw [if_neg (mt (tickLt_iff _ _).1 (Int.not_lt.2 hafter))]
  · have hjoin := joinEarlier_eq x.maxOnTicks hopens hraw hlimit
    have hown : x.openBound n.valve = bound := (openBound_eq x h).trans hbound.symm
    have hlt : tickLt n.openTick w.openTick = true := (tickLt_iff _ _).2 hbefore
    refine ⟨fun hbusy => ?_, fun hroom => ?_⟩
    · rw [if_pos hbusy] at hjoin
      simp only [Lane.placeFiring, hwindow]
      rw [if_pos hlt, hown, hjoin]
    · rw [if_neg (Int.not_lt.2 hroom)] at hjoin
      simp only [Lane.placeFiring, hwindow]
      rw [if_pos hlt, hown, hjoin]

variable (hnone : entriesOf v x.firings = [])
include hnone

theorem placeFiring_of_pending {w : Firing} (h : (x.valve v).pending = some w) :
    x.placeFiring n = x.placeAfter w n fun w' => x.setValve v { x.valve v with pending := some w' } := by
  have hwindow : x.latestWindow v = .pending w := by simp only [Lane.latestWindow, hnone, List.getLast?_nil, h]
  subst hv
  simp only [Lane.placeFiring, hwindow]

variable (hpending : (x.valve v).pending = none)
include hpending

theorem placeFiring_of_boost {o : Opening} {w : Firing} (hphase : (x.valve v).phase = .boost o) (hsource : o.source = .firing w) :
    x.placeFiring n =
      x.placeAfter w n fun w' => x.setValve v { x.valve v with phase := .boost { o with source := .firing w' } } := by
  have hwindow : x.latestWindow v = .current w := by
    simp only [Lane.latestWindow, hnone, List.getLast?_nil, hpending, hphase, hsource]
  subst hv
  simp only [Lane.placeFiring, hwindow, Valve.setFiring, hphase]

theorem placeFiring_of_sustain {o : Opening} {w : Firing} {p : Nat} {d : Bool} (hphase : (x.valve v).phase = .sustain o p d)
    (hsource : o.source = .firing w) :
    x.placeFiring n =
      x.placeAfter w n fun w' => x.setValve v { x.valve v with phase := .sustain { o with source := .firing w' } p d } := by
  have hwindow : x.latestWindow v = .current w := by
    simp only [Lane.latestWindow, hnone, List.getLast?_nil, hpending, hphase, hsource]
  subst hv
  simp only [Lane.placeFiring, hwindow, Valve.setFiring, hphase]

/-- After a finished opening the end of its recovery is the earliest open (R84). -/
theorem placeFiring_of_recovering {b r : Nat} {e : TickTime} (hphase : (x.valve v).phase = .recover b r (some e)) :
    (0 ≤ (n.openTick - e).toInt → x.placeFiring n = x.addEntry n) ∧
      ((n.openTick - e).toInt < 0 → (n.closeTick - (e + 4)).toInt < 0 → x.placeFiring n = (x, .missed .valveBusy)) ∧
      ((n.openTick - e).toInt < 0 → 0 ≤ (n.closeTick - (e + 4)).toInt →
        x.placeFiring n = x.addEntry { n with openTick := e, delayed := true }) := by
  have hwindow : x.latestWindow v = .finished (some e) := by
    simp only [Lane.latestWindow, hnone, List.getLast?_nil, hpending, hphase]
  subst hv
  simp only [Lane.placeFiring, hwindow]
  refine ⟨fun h => ?_, fun h hbusy => ?_, fun h hroom => ?_⟩
  · rw [if_neg (mt (tickLt_iff _ _).1 (Int.not_lt.2 h))]
  · have hlate : tickLt n.closeTick (tickAdd e Config.leastWindow) = true := (tickLt_iff _ _).2 hbusy
    rw [if_pos ((tickLt_iff _ _).2 h), if_pos hlate]
  · have hin : ¬ tickLt n.closeTick (tickAdd e Config.leastWindow) = true := mt (tickLt_iff _ _).1 (Int.not_lt.2 hroom)
    rw [if_pos ((tickLt_iff _ _).2 h), if_neg hin]

/-- With no window at all a firing is a new entry (R85). -/
theorem placeFiring_of_absent (hopen : (x.valve v).firingOpen = none)
    (hrest : ∀ b r e, (x.valve v).phase ≠ .recover b r (some e)) : x.placeFiring n = x.addEntry n := by
  have hwindow : x.latestWindow v = .absent ∨ x.latestWindow v = .finished none := by
    simp only [Lane.latestWindow, hnone, List.getLast?_nil, hpending]
    have htest {o : Opening} (h : (x.valve v).opening = some o) : ∃ d, o.source = .test d := by
      rw [Valve.firingOpen, h] at hopen
      cases hsource : o.source with
      | firing w => simp [hsource] at hopen
      | test d => exact ⟨d, rfl⟩
    cases hphase : (x.valve v).phase with
    | closed => exact .inl rfl
    | boost o =>
      obtain ⟨d, hd⟩ := htest (o := o) (by rw [Valve.opening, hphase])
      simp only [hd, true_or]
    | sustain o p c =>
      obtain ⟨d, hd⟩ := htest (o := o) (by rw [Valve.opening, hphase])
      simp only [hd, true_or]
    | recover b r e =>
      cases e with
      | none => exact .inr rfl
      | some e => exact absurd hphase (hrest b r e)
  subst hv
  rcases hwindow with h | h <;> simp only [Lane.placeFiring, h]

end

/-- Settles O42: each window by what `placeFiring` does against it. -/
theorem placementJoinsOrAdds : Obligations.PlacementJoinsOrAdds := by
  refine ⟨fun x n v hv => ⟨fun hnone hpending hopen => ⟨fun hrest => ?_, fun b r e hphase => ?_⟩,
    fun hnone hpending w o hsource _ => ⟨fun hphase => ?_, fun p d hphase => ?_⟩, fun hnone w hpending _ => ?_, fun pre w hqueued => ?_⟩,
    fun f w before behind h => replaceLast_append f before h, insertFiring_split⟩
  · exact placedAsEntry_of (placeFiring_of_absent hv hnone hpending hopen hrest)
  · obtain ⟨hafter, hbusy, hdelayed⟩ := placeFiring_of_recovering hv hnone hpending hphase
    exact ⟨fun h => placedAsEntry_of (hafter h), fun h hlate => place_of_missed (hbusy h hlate),
      fun h hroom => placedAsEntry_of (hdelayed h hroom)⟩
  · exact joinedOrRested_of (placeFiring_of_boost hv hnone hpending hphase hsource)
  · exact joinedOrRested_of (placeFiring_of_sustain hv hnone hpending hphase hsource)
  · exact joinedOrRested_of (placeFiring_of_pending hv hnone hpending)
  · obtain ⟨hjoined, hearlier⟩ := placeFiring_of_queued hv hqueued
    refine ⟨fun h => joinedOrRested_of (hjoined h), fun bound opens raw limit hbefore hbound hopens hraw hlimit => ?_⟩
    obtain ⟨hbusy, hroom⟩ := hearlier bound opens raw limit hbefore hbound hopens hraw hlimit
    exact ⟨fun h => place_of_missed (hbusy h), fun h => place_of_scheduled (hroom h)⟩

end Sys2Proof.Machine

/-! ## Proofs: the pending slot (O28). No event looks at the pending command before its own end. -/
namespace Sys2Proof.Machine

/-- The part with a pending slot put in the place of its own. -/
def State.slotted (s : State) (q : Option CommandRecord) : State := { s with cmu := { s.cmu with slot := q } }

namespace State

variable (s : State) (q : Option CommandRecord) (l : LaneId)

/-! ### The parts of the state -/

@[simp] theorem slotted_lane : (s.slotted q).lane l = s.lane l := by cases l <;> rfl
@[simp] theorem slotted_rtu : (s.slotted q).rtu = s.rtu := rfl
@[simp] theorem slotted_rwu : (s.slotted q).rwu = s.rwu := rfl
@[simp] theorem slotted_ptu : (s.slotted q).ptu = s.ptu := rfl
@[simp] theorem slotted_now : (s.slotted q).now = s.now := rfl
@[simp] theorem slotted_events : (s.slotted q).events = s.events := rfl
@[simp] theorem slotted_sram : (s.slotted q).sram = s.sram := rfl
@[simp] theorem slotted_inReset : (s.slotted q).inReset = s.inReset := rfl
@[simp] theorem slotted_executing : (s.slotted q).cmu.executing = s.cmu.executing := rfl
@[simp] theorem slotted_captureWait : (s.slotted q).cmu.captureWait = s.cmu.captureWait := rfl
@[simp] theorem slotted_swapWaiting : (s.slotted q).swapWaiting l = s.swapWaiting l := rfl
@[simp] theorem slotted_pass (n : Nat) : (s.slotted q).pass n = (s.pass n).slotted q := rfl
@[simp] theorem slotted_setLane (x : Lane) : (s.slotted q).setLane l x = (s.setLane l x).slotted q := by cases l <;> rfl
@[simp] theorem slotted_modLane (f : Lane → Lane) : (s.slotted q).modLane l f = (s.modLane l f).slotted q := by cases l <;> rfl
@[simp] theorem slotted_record (r : Record) : (s.slotted q).record r = (s.record r).slotted q := rfl
@[simp] theorem slotted_apply (w : Lane × List Record) : (s.slotted q).apply l w = (s.apply l w).slotted q := by cases l <;> rfl

/-! ### Commands, commits and swaps -/

@[simp] theorem slotted_completeCommand (c : CommandStatus) (d : Word) :
    (s.slotted q).completeCommand c d = (s.completeCommand c d).slotted q := by
  simp only [State.completeCommand, slotted_executing]
  split <;> rfl

@[simp] theorem slotted_endCommit (c : CommandStatus) (d : Word) : (s.slotted q).endCommit c d = (s.endCommit c d).slotted q :=
  slotted_completeCommand { s with rtu := { s.rtu with commit := .idle } } q c d

@[simp] theorem slotted_swapLane : (s.slotted q).swapLane l = (s.swapLane l).slotted q := by
  cases hw : s.swapWaiting l with
  | false => rw [swapLane_of_not_waiting hw, swapLane_of_not_waiting (s := s.slotted q) hw]
  | true =>
    obtain ⟨m, w, hcommit⟩ := swapping_of_swapWaiting hw
    rw [swapLane_of_waiting hcommit hw, swapLane_of_waiting (s := s.slotted q) hcommit hw, slotted_rtu]
    split
    · rw [slotted_modLane, slotted_endCommit]
    · rw [slotted_modLane]
      rfl

@[simp] theorem slotted_settleSwap : (s.slotted q).settleSwap l = (s.settleSwap l).slotted q := by
  rw [State.settleSwap, State.settleSwap, slotted_lane, slotted_swapLane]
  split <;> rfl

@[simp] theorem slotted_swapAtOnce : (s.slotted q).swapAtOnce l = (s.swapAtOnce l).slotted q := by
  rw [State.swapAtOnce, State.swapAtOnce, slotted_lane, slotted_swapLane]
  split <;> rfl

theorem slotted_endScan : (s.slotted q).endScan = s.endScan.slotted q := by
  simp only [State.endScan, slotted_rtu, slotted_now, slotted_endCommit]
  split
  · rfl
  · rfl
  · split
    · split
      · rfl
      · split
        · rfl
        · exact (congrArg (fun u : State => u.swapAtOnce .lane1)
            (slotted_swapAtOnce { s with rtu := { s.rtu with commit := .swapping _ 0 } } q .lane0)).trans
              (slotted_swapAtOnce _ q .lane1)
    · rfl

theorem slotted_stagingWritten (o : BitVec 10) (d : Word) (be : Enables) :
    (s.slotted q).stagingWritten o d be = (s.stagingWritten o d be).slotted q := by
  have hmerged : (s.slotted q).mergeStaged o d be = (s.mergeStaged o d be).slotted q := rfl
  simp only [State.stagingWritten, slotted_rtu, hmerged]
  split <;> simp only [slotted_endCommit]

/-! ### Modes -/

@[simp] theorem slotted_takeCapture : (s.slotted q).takeCapture l = (s.takeCapture l).slotted q := by
  simp only [State.takeCapture, slotted_lane]
  rfl

@[simp] theorem slotted_captureIfWaiting : (s.slotted q).captureIfWaiting l = (s.captureIfWaiting l).slotted q := by
  rw [State.captureIfWaiting, State.captureIfWaiting, slotted_captureWait, slotted_takeCapture]
  split <;> rfl

@[simp] theorem slotted_takeSnapshot (c : SnapshotCause) : (s.slotted q).takeSnapshot l c = (s.takeSnapshot l c).slotted q := by
  simp only [State.takeSnapshot, slotted_lane]
  rfl

@[simp] theorem slotted_setMode (m : LaneMode) (c : ModeCause) (r : BitVec 16) :
    (s.slotted q).setMode l m c r = (s.setMode l m c r).slotted q := by
  simp only [State.setMode, slotted_lane, slotted_setLane, slotted_record]

@[simp] theorem slotted_faultLane : (s.slotted q).faultLane l = (s.faultLane l).slotted q := by
  simp only [State.faultLane, slotted_captureIfWaiting, slotted_setMode, slotted_lane, slotted_now, slotted_apply,
    slotted_takeSnapshot]

@[simp] theorem slotted_enterHold : (s.slotted q).enterHold l = (s.enterHold l).slotted q := by
  simp only [State.enterHold, slotted_captureIfWaiting, slotted_setMode, slotted_modLane, slotted_takeSnapshot]

@[simp] theorem slotted_settleDrain : (s.slotted q).settleDrain l = (s.settleDrain l).slotted q := by
  rw [State.settleDrain, State.settleDrain, slotted_lane, slotted_enterHold]
  split <;> rfl

@[simp] theorem slotted_evaluateDrain (b : Bool) (n : Nat) : (s.slotted q).evaluateDrain l b n = (s.evaluateDrain l b n).slotted q :=
  slotted_modLane s q l _

/-! ### The intake -/

@[simp] theorem slotted_damageLine (a : Assembly) (r : LineFaultReason) :
    (s.slotted q).damageLine l a r = (s.damageLine l a r).slotted q := by
  simp only [State.damageLine, slotted_modLane, slotted_record]

@[simp] theorem slotted_handVoid (b : Bool) : (s.slotted q).handVoid l b = (s.handVoid l b).slotted q := by
  simp only [State.handVoid, slotted_swapLane, slotted_lane, slotted_apply]

@[simp] theorem slotted_handSkipped (n : Nat) : (s.slotted q).handSkipped l n = (s.handSkipped l n).slotted q := by
  induction n generalizing s with
  | zero => rfl
  | succ n ih => rw [State.handSkipped, State.handSkipped, slotted_handVoid, ih]

@[simp] theorem slotted_handData (n : LineNo) (b : Bool) (cs : List PixelClass) :
    (s.slotted q).handData l n b cs = (s.handData l n b cs).slotted q := by
  simp only [State.handData, slotted_lane, slotted_apply]

@[simp] theorem slotted_setExpected (e : LineNo) : (s.slotted q).setExpected l e = (s.setExpected l e).slotted q :=
  slotted_modLane s q l _

@[simp] theorem slotted_finishLine (a : Assembly) (d : Word) : (s.slotted q).finishLine l a d = (s.finishLine l a d).slotted q := by
  simp only [State.finishLine, slotted_lane]
  split <;>
    simp only [slotted_damageLine, slotted_modLane, slotted_handSkipped, slotted_handVoid, slotted_handData, slotted_setExpected]

theorem slotted_judgedHeader (slot : BitVec 4) (h : BitVec 16) {f g : LineNo → State} (hfg : ∀ n, g n = (f n).slotted q) :
    (s.slotted q).judgedHeader l slot h g = (s.judgedHeader l slot h f).slotted q := by
  simp only [State.judgedHeader, slotted_lane]
  split
  · simp only [State.headerAhead, slotted_lane, slotted_modLane, slotted_record]
  · simp only [State.headerStale, slotted_modLane, slotted_record]
  · exact hfg _

@[simp] theorem slotted_sortingHeader (slot : BitVec 4) (h : BitVec 16) :
    (s.slotted q).sortingHeader l slot h = (s.sortingHeader l slot h).slotted q := by
  simp only [State.sortingHeader, slotted_lane]
  split
  · rw [slotted_damageLine]
    exact slotted_judgedHeader _ q l slot h fun n => by rw [slotted_swapLane, slotted_modLane]
  · exact slotted_judgedHeader _ q l slot h fun n => by rw [slotted_swapLane, slotted_modLane]

@[simp] theorem slotted_endWord (slot : BitVec 4) (d : Word) : (s.slotted q).endWord l slot d = (s.endWord l slot d).slotted q := by
  simp only [State.endWord, slotted_lane, slotted_finishLine, slotted_modLane]
  split
  · split <;> rfl
  · rfl

theorem slotted_judgeSorting (e : FifoEntry) : (s.slotted q).judgeSorting l e = (s.judgeSorting l e).slotted q := by
  simp only [State.judgeSorting]
  split <;> simp only [slotted_sortingHeader, slotted_modLane, slotted_endWord]

theorem slotted_judgeHolding (e : FifoEntry) : (s.slotted q).judgeHolding l e = (s.judgeHolding l e).slotted q := by
  simp only [State.judgeHolding]
  split
  · exact slotted_judgedHeader s q l _ _ fun n => slotted_setExpected s q l _
  · exact slotted_modLane s q l _
  all_goals rfl

theorem slotted_judgeEntry (e : FifoEntry) : (s.slotted q).judgeEntry e = (s.judgeEntry e).slotted q := by
  simp only [State.judgeEntry, slotted_lane]
  split <;> simp only [slotted_judgeSorting, slotted_judgeHolding]

theorem slotted_expire (n : Nat) : (s.slotted q).expire l n = (s.expire l n).slotted q := by
  induction n generalizing s with
  | zero => rfl
  | succ n ih =>
    simp only [State.expire, slotted_lane]
    split
    · split
      · split <;> simp only [slotted_damageLine, slotted_handVoid, slotted_setExpected, ih]
      · simp only [slotted_handVoid, slotted_setExpected, ih]
    · rfl

@[simp] theorem slotted_intakeLineStart : (s.slotted q).intakeLineStart l = (s.intakeLineStart l).slotted q := by
  simp only [State.intakeLineStart, slotted_lane, slotted_expire, slotted_modLane]
  split <;> rfl

theorem slotted_closeIntake (x : Lane) : (s.slotted q).closeIntake l x = (s.closeIntake l x).slotted q := by
  have hsnapshot (b : Word) (n : Nat) : (s.slotted q).intervalSnapshot l b n = (s.intervalSnapshot l b n).slotted q := by
    simp only [State.intervalSnapshot, slotted_lane, slotted_takeSnapshot]
    split <;> rfl
  have hboundary (t : State) (n : Nat) : (t.slotted q).lineBoundary l n = (t.lineBoundary l n).slotted q := by
    by_cases h : 0 < n ∧ t.cmu.captureWait = some l
    · rw [State.lineBoundary, State.lineBoundary, if_pos (show 0 < n ∧ (t.slotted q).cmu.captureWait = some l from h), if_pos h]
      rfl
    · rw [State.lineBoundary, State.lineBoundary, if_neg (show ¬ (0 < n ∧ (t.slotted q).cmu.captureWait = some l) from h), if_neg h]
  simp only [State.closeIntake, slotted_lane, hsnapshot, hboundary, slotted_evaluateDrain]

/-! ### The clock -/

@[simp] theorem slotted_takeTick (k : Nat) : (s.slotted q).takeTick l k = (s.takeTick l k).slotted q := by
  simp only [State.takeTick, State.tickOnly, slotted_modLane, slotted_lane, slotted_now, slotted_evaluateDrain]

theorem slotted_ticksFrom (k n : Nat) : (s.slotted q).ticksFrom l k n = (s.ticksFrom l k n).slotted q := by
  induction n generalizing s k with
  | zero => rfl
  | succ n ih => rw [State.ticksFrom, State.ticksFrom, slotted_takeTick, slotted_settleDrain, slotted_settleSwap, ih]

@[simp] theorem slotted_remainingTicks : (s.slotted q).remainingTicks l = (s.remainingTicks l).slotted q := by
  rw [State.remainingTicks, State.remainingTicks, slotted_lane, slotted_ticksFrom]

@[simp] theorem slotted_reachedTicks (n : Nat) : (s.slotted q).reachedTicks l n = (s.reachedTicks l n).slotted q := by
  induction n generalizing s with
  | zero => rfl
  | succ n ih =>
    simp only [State.reachedTicks, slotted_lane, slotted_now, slotted_takeTick, ih]
    split <;> rfl

@[simp] theorem slotted_modClock (f : Clock → Clock) : (s.slotted q).modClock l f = (s.modClock l f).slotted q := slotted_modLane s q l _

@[simp] theorem slotted_beginLine (n : Nat) : (s.slotted q).beginLine l n = (s.beginLine l n).slotted q := by
  rw [State.beginLine, State.beginLine, slotted_modClock, slotted_takeTick]

@[simp] theorem slotted_recordClock (e : ClockState) (k : Option LockKind) (n : Nat) :
    (s.slotted q).recordClock l e k n = (s.recordClock l e k n).slotted q := by
  simp only [State.recordClock, slotted_lane, slotted_record]

end State

/-! ### The end of an event -/

/-- What an event leaves with a command pending, from what it leaves with none: the pending command is executed if none executes
any more, after the HOLD entries that the event owes (R145; log entry 10). -/
def State.Resumed (t r : State) (p : CommandRecord) : Prop :=
  r = if t.cmu.executing = none then ((t.settleDrain .lane0).settleDrain .lane1).executeCommand p
    else { t with cmu := { t.cmu with slot := some p } }

theorem finishCommands_slotted_none (u : State) : (u.slotted none).finishCommands = u.slotted none :=
  finishCommands_same fun _ => rfl

theorem finishCommands_slotted_some (u : State) (p : CommandRecord) :
    (u.slotted none).Resumed (u.slotted (some p)).finishCommands p := by
  rw [State.Resumed, State.slotted_executing]
  cases hexecuting : u.cmu.executing with
  | none =>
    have hboth (q : Option CommandRecord) : ((u.slotted q).settleDrain .lane0).settleDrain .lane1 =
        ((u.settleDrain .lane0).settleDrain .lane1).slotted q := by
      rw [State.slotted_settleDrain, State.slotted_settleDrain]
    have hfinish : (u.slotted (some p)).finishCommands =
        ({ ((u.slotted (some p)).settleDrain .lane0).settleDrain .lane1 with
          cmu := { (((u.slotted (some p)).settleDrain .lane0).settleDrain .lane1).cmu with slot := none } } : State).executeCommand p := by
      simp only [State.finishCommands, State.slotted_executing, hexecuting]
      rfl
    rw [hfinish, if_pos rfl, hboth, hboth]
    rfl
  | some r =>
    rw [if_neg (by simp)]
    exact finishCommands_same fun h => by rw [State.slotted_executing, hexecuting] at h; cases h

section
variable {s F : State} {f : State → State} (p : CommandRecord)

/-- An event that works without a look at the slot and then lets the pending command follow. -/
theorem resumed_of_finish (h : ∀ q, f (s.slotted q) = (F.slotted q).finishCommands) :
    (f (s.slotted none)).Resumed (f (s.slotted (some p))) p := by
  rw [h, h, finishCommands_slotted_none]
  exact finishCommands_slotted_some F p

/-- An event that leaves a command executing, and does not look at the slot. -/
theorem resumed_of_executing (hexecuting : F.cmu.executing ≠ none) (h : ∀ q, f (s.slotted q) = F.slotted q) :
    (f (s.slotted none)).Resumed (f (s.slotted (some p))) p := by
  rw [h, h, State.Resumed, if_neg (by rwa [State.slotted_executing])]
  rfl

end

/-! ### The events -/

/-- The loss of a clock completes no command (R157, R160). -/
theorem faultLane_executing (s : State) (l : LaneId) : (s.faultLane l).cmu.executing = s.cmu.executing := by
  have hcapture : (s.captureIfWaiting l).cmu.executing = s.cmu.executing := by
    rw [State.captureIfWaiting]
    split <;> rfl
  rw [← hcapture]
  cases l <;> rfl

theorem slotted_completeUnit (s : State) (q : Option CommandRecord) (k : UnitKind) :
    (s.slotted q).completeUnit k = (s.completeUnit k).slotted q := by
  have hdone (w : Rwu) (c : CommandStatus) (d : Word) : ({ s.slotted q with rwu := w } : State).completeCommand c d =
      (({ s with rwu := w } : State).completeCommand c d).slotted q := State.slotted_completeCommand { s with rwu := w } q c d
  cases k with
  | ringRecord slot => rfl
  | commonBlock => rfl
  | captureDump => exact hdone _ _ _
  | laneBlock l owed =>
    cases owed with
    | false => rfl
    | true =>
      simp only [State.completeUnit, if_true]
      split
      · rename_i hwritten
        rw [if_pos (by exact hwritten)]
        exact hdone _ _ _
      · rename_i hwritten
        rw [if_neg (by exact hwritten)]
        rfl

section
variable {s : State} (hexecuting : s.cmu.executing ≠ none) (p : CommandRecord)
include hexecuting

theorem resumed_same : (s.slotted none).Resumed (s.slotted (some p)) p :=
  resumed_of_executing (f := id) p hexecuting fun _ => rfl

theorem resumed_leaveFifo : (s.slotted none).leaveFifo.Resumed (s.slotted (some p)).leaveFifo p := by
  cases hfifo : s.ptu.fifo with
  | nil =>
    refine resumed_of_executing (F := s) p hexecuting fun q => ?_
    simp only [State.leaveFifo, State.slotted_ptu, hfifo]
  | cons e rest =>
    obtain ⟨u, hu⟩ : ∃ u : State, u = { s with ptu := s.ptu.leave rest } := ⟨_, rfl⟩
    refine resumed_of_finish (F := (u.judgeEntry e).closeIntake (ringLane e.offset) (u.lane (ringLane e.offset))) p fun q => ?_
    have hq : ({ s.slotted q with ptu := s.ptu.leave rest } : State) = u.slotted q := by rw [hu]; rfl
    simp only [State.leaveFifo, State.slotted_ptu, hfifo, hq]
    rw [endIntake_eq, State.slotted_judgeEntry, State.slotted_lane, State.slotted_closeIntake]

omit hexecuting in
theorem resumed_reachIntake (l : LaneId) : ((s.slotted none).reachIntake l).Resumed ((s.slotted (some p)).reachIntake l) p := by
  refine resumed_of_finish (f := fun u => u.reachIntake l) (F := (s.intakeLineStart l).closeIntake l (s.lane l)) p fun q => ?_
  rw [State.reachIntake, endIntake_eq, State.slotted_intakeLineStart, State.slotted_lane, State.slotted_closeIntake]

omit hexecuting in
/-- Clock work that does not look at the slot, before the line start reaches the LIU. -/
theorem resumed_lineStart {f g : State → State} {l : LaneId} (hf : ∀ q, f (s.slotted q) = ((g s).slotted q).reachIntake l) :
    (f (s.slotted none)).Resumed (f (s.slotted (some p))) p := by
  rw [hf, hf]
  exact resumed_reachIntake p l

omit hexecuting in
theorem resumed_syntheticStart (l : LaneId) (n : Nat) :
    ((s.slotted none).syntheticStart l n).Resumed ((s.slotted (some p)).syntheticStart l n) p :=
  resumed_lineStart (l := l) (f := fun u => u.syntheticStart l n)
    (g := fun u => (((u.remainingTicks l).beginLine l n).reachedTicks l 15).modClock l fun c =>
      { c with episode := c.episode + 1, nextSynthetic := some (n + c.period) }) p fun q => by
    simp only [State.syntheticStart, State.slotted_remainingTicks, State.slotted_beginLine, State.slotted_reachedTicks,
      State.slotted_modClock]

theorem resumed_edge (l : LaneId) : ((s.slotted none).edge l).Resumed ((s.slotted (some p)).edge l) p := by
  have hglitch : ((s.slotted none).modLane l Lane.glitch).Resumed ((s.slotted (some p)).modLane l Lane.glitch) p :=
    resumed_of_executing (f := fun u => u.modLane l Lane.glitch) (F := s.modLane l Lane.glitch) p (by rwa [modLane_cmu]) fun q =>
      State.slotted_modLane s q l _
  simp only [State.edge, State.slotted_lane, State.slotted_now]
  split
  · exact resumed_same hexecuting p
  · refine resumed_lineStart (l := l) (f := fun u => u.firstEdge l)
      (g := fun u => ((u.beginLine l u.now).modClock l fun c => c.lock u.now).recordClock l .locked (some .first) 0) p fun q => ?_
    simp only [State.firstEdge, State.slotted_now, State.slotted_beginLine, State.slotted_modClock, State.slotted_recordClock]
  · split
    · exact hglitch
    · refine resumed_lineStart (l := l) (f := fun u => u.lockedEdge l)
        (g := fun u => ((((u.remainingTicks l).modLane l fun x => x.measureEdge (u.now - (u.lane l).clock.lineStart)).beginLine l
          u.now).modClock l fun c => { c with coastDeadline := some (c.deadlineAfter u.now) })) p fun q => ?_
      simp only [State.lockedEdge, State.slotted_now, State.slotted_lane, State.slotted_remainingTicks, State.slotted_modLane,
        State.slotted_beginLine, State.slotted_modClock]
  · split
    · exact hglitch
    · split
      · refine resumed_lineStart (l := l) (f := fun u => u.relockNewLine l)
          (g := fun u => (((u.remainingTicks l).beginLine l u.now).modClock l fun c => c.lock u.now).recordClock l .locked
            (some .newLine) (u.lane l).clock.episode) p fun q => ?_
        simp only [State.relockNewLine, State.slotted_now, State.slotted_lane, State.slotted_remainingTicks,
          State.slotted_beginLine, State.slotted_modClock, State.slotted_recordClock]
      · refine resumed_of_executing (f := fun u => u.reAnchor l) (F := s.reAnchor l) p ?_ fun q => ?_
        · cases l <;> exact hexecuting
        · simp only [State.reAnchor, State.slotted_now, State.slotted_lane, State.slotted_modClock, State.slotted_recordClock]
  · exact resumed_same hexecuting p

theorem resumed_deadlineFalls (l : LaneId) : ((s.slotted none).deadlineFalls l).Resumed ((s.slotted (some p)).deadlineFalls l) p := by
  simp only [State.deadlineFalls, State.slotted_lane, State.slotted_now]
  split
  · simp only [State.coast, State.slotted_lane, State.slotted_modLane, State.slotted_record]
    exact resumed_syntheticStart p l _
  · exact resumed_same hexecuting p

theorem resumed_syntheticFalls (l : LaneId) : ((s.slotted none).syntheticFalls l).Resumed ((s.slotted (some p)).syntheticFalls l) p := by
  simp only [State.syntheticFalls, State.slotted_lane, State.slotted_now]
  split
  · split
    · split
      · refine resumed_of_executing (f := fun u => u.loseClock l) (F := s.loseClock l) p ?_ fun q => ?_
        · rw [State.loseClock, faultLane_executing]
          cases l <;> exact hexecuting
        · simp only [State.loseClock, State.slotted_modClock, State.slotted_lane, State.slotted_recordClock, State.slotted_faultLane]
      · exact resumed_syntheticStart p l _
    · exact resumed_same hexecuting p
  · exact resumed_same hexecuting p

omit hexecuting in
theorem resumed_scanEnds : (s.slotted none).scanEnds.Resumed (s.slotted (some p)).scanEnds p :=
  resumed_of_finish (f := State.scanEnds) (F := s.endScan) p fun q => by rw [State.scanEnds, State.slotted_endScan]

omit hexecuting in
theorem resumed_swapOutside (l : LaneId) : ((s.slotted none).swapOutside l).Resumed ((s.slotted (some p)).swapOutside l) p :=
  resumed_of_finish (f := fun u => u.swapOutside l) (F := s.swapLane l) p fun q => by rw [State.swapOutside, State.slotted_swapLane]

theorem resumed_swapAtEntry (l : LaneId) : ((s.slotted none).swapAtEntry l).Resumed ((s.slotted (some p)).swapAtEntry l) p := by
  have hpoint (q : Option CommandRecord) : (s.slotted q).atSwapPoint l = s.atSwapPoint l := by cases l <;> rfl
  simp only [State.swapAtEntry, State.slotted_swapWaiting, hpoint]
  split
  · exact resumed_leaveFifo hexecuting p
  · exact resumed_same hexecuting p

theorem resumed_partCompletes : (s.slotted none).partCompletes.Resumed (s.slotted (some p)).partCompletes p := by
  cases hport : s.ptu.sport with
  | free =>
    refine resumed_of_executing (f := State.partCompletes) (F := s) p hexecuting fun q => ?_
    simp only [State.partCompletes, State.slotted_ptu, hport]
  | controller =>
    refine resumed_of_executing (f := State.partCompletes) (F := s) p hexecuting fun q => ?_
    simp only [State.partCompletes, State.slotted_ptu, hport]
  | part o d =>
    obtain ⟨u, hu⟩ : ∃ u : State, u = ({ s with ptu := { s.ptu with sport := .free } } : State).carryPart o d := ⟨_, rfl⟩
    have hcarried (q : Option CommandRecord) : (s.slotted q).partCompletes = (u.slotted q).wordReported := by
      simp only [State.partCompletes, State.slotted_ptu, hport]
      rw [hu]
      rfl
    have hstill : u.cmu.executing ≠ none := by rw [hu]; exact hexecuting
    cases hunit : u.rwu.unit with
    | none =>
      refine resumed_of_executing (f := State.partCompletes) (F := u) p hstill fun q => ?_
      rw [hcarried]
      simp only [State.wordReported, State.slotted_rwu, hunit]
    | some w =>
      by_cases hlast : w.unreported ≤ 1
      · refine resumed_of_finish (f := State.partCompletes) (F := u.completeUnit w.kind) p fun q => ?_
        rw [hcarried, ← slotted_completeUnit]
        simp only [State.wordReported, State.slotted_rwu, hunit]
        rw [if_pos hlast]
      · refine resumed_of_executing (f := State.partCompletes)
          (F := { u with rwu := { u.rwu with unit := some { w with unreported := w.unreported - 1 } } }) p hstill fun q => ?_
        rw [hcarried]
        simp only [State.wordReported, State.slotted_rwu, hunit]
        rw [if_neg hlast]
        rfl

/-- A staging write, turned away, only carried, or observed (R126, R184, R196). -/
theorem resumed_stagingWrite (o : BitVec 10) (d : Word) (be : Enables) :
    ((s.slotted none).acceptFrameWrite (BitVec.ofNat 18 (0x400 + o.toNat)) d be).Resumed
      ((s.slotted (some p)).acceptFrameWrite (BitVec.ofNat 18 (0x400 + o.toNat)) d be) p := by
  obtain ⟨a, ha⟩ : ∃ a : Access, a = ⟨addressOf s.ptu.frameSelect (BitVec.ofNat 18 (0x400 + o.toNat)), true, d, be⟩ := ⟨_, rfl⟩
  have hcarried (q : Option CommandRecord) (haccess : s.ptu.access = none) :
      (s.slotted q).acceptFrameWrite (BitVec.ofNat 18 (0x400 + o.toNat)) d be =
        if s.inReset = true then (s.hold a).slotted q else (((s.hold a).stagingWritten o d be).slotted q).finishCommands := by
    have hheld : (s.slotted q).hold a = (s.hold a).slotted q := rfl
    simp only [State.acceptFrameWrite, State.acceptWrite, State.slotted_ptu, haccess, State.takeWrite, State.slotted_inReset,
      frameOf_addressOf, offsetOf_addressOf, beq_self_eq_true, Bool.and_true, ← ha, hheld, State.observe, sortOffset_eq_staging,
      State.slotted_stagingWritten]
    cases s.inReset <;> rfl
  cases haccess : s.ptu.access with
  | some b =>
    refine resumed_of_executing (f := fun u => u.acceptFrameWrite (BitVec.ofNat 18 (0x400 + o.toNat)) d be) (F := s) p hexecuting
      fun q => ?_
    simp only [State.acceptFrameWrite, State.acceptWrite, State.slotted_ptu, haccess]
  | none =>
    by_cases hreset : s.inReset = true
    · refine resumed_of_executing (f := fun u => u.acceptFrameWrite (BitVec.ofNat 18 (0x400 + o.toNat)) d be) (F := s.hold a) p
        hexecuting fun q => ?_
      rw [hcarried q haccess, if_pos hreset]
    · refine resumed_of_finish (f := fun u => u.acceptFrameWrite (BitVec.ofNat 18 (0x400 + o.toNat)) d be)
        (F := (s.hold a).stagingWritten o d be) p fun q => ?_
      rw [hcarried q haccess, if_neg hreset]

end

/-! ### The rows -/

theorem settled_slotted {s : State} (hs : s.Settled) (hexecuting : s.cmu.executing ≠ none) (q : Option CommandRecord) :
    (s.slotted q).Settled := by
  cases hr : s.cmu.executing with
  | none => exact absurd hr hexecuting
  | some r =>
    simp only [State.Settled, State.owes, State.slotted_executing, hr, Option.isNone_some, Bool.false_and, Bool.or_false] at hs ⊢
    exact hs

/-- A row that works on the part once its time has passed. -/
theorem resumed_of_row {s t : State} {p : CommandRecord} {n : Nat} {c : Instr} {f : State → State}
    (hrow : ∀ q, exec c (s.slotted q) = .next (f ((s.pass n).slotted q)))
    (hresumed : (f ((s.pass n).slotted none)).Resumed (f ((s.pass n).slotted (some p))) p)
    (ht : exec c (s.slotted none) = .next t) : ∃ r, exec c (s.slotted (some p)) = .next r ∧ t.Resumed r p := by
  rw [hrow] at ht
  cases ht
  exact ⟨_, hrow _, hresumed⟩

theorem exec_laneSwap_of_settled {s : State} (hs : s.Settled) (n : Nat) (l : LaneId) :
    exec (.laneSwap n l) s =
      .next (if (s.lane l).mode.sorting = true then (s.pass n).swapAtEntry l else (s.pass n).swapOutside l) := by
  obtain ⟨hcapture, hdrain, -⟩ := settle_parts hs
  show execLaneSwap n l s = _
  rw [execLaneSwap, hcapture, hdrain, hdrain, begin_of_settled hs]
  split <;> rfl

section
variable {s : State} {g : Word} {r k : CommandRecord} (hrecord : s.cmu.recordOf g = k) (hexecuting : s.cmu.executing = some r)
include hrecord hexecuting

theorem goWordArrives_held (hslot : s.cmu.slot = none) :
    s.goWordArrives g = { s with cmu := { s.cmu with slot := some k } } := by
  simp only [State.goWordArrives, hexecuting, hslot, hrecord]

theorem goWordArrives_superseding {old : CommandRecord} (hslot : s.cmu.slot = some old) :
    s.goWordArrives g =
      { s with
        cmu := { s.cmu with slot := some k }
        rwu := s.rwu.enqueue (.commandDone old.code old.laneField old.seq .superseded (k.seq.setWidth 32)) } := by
  simp only [State.goWordArrives, hexecuting, hslot, hrecord]
  rfl

end

/-- Settles O28: a go word by what finds it, and a pending command by the event that does not look at it. -/
theorem goWordsWaitOrSupersede : Obligations.GoWordsWaitOrSupersede := by
  refine ⟨fun s n x u f q hready e he => ⟨fun hnone => ?_, fun hsome hslot => ?_, fun old hsome hslot => ?_⟩,
    fun s t n l o data be p hs hexecuting hslot c hc ht => ?_⟩
  · exact exec_goRow hready hnone he
  · obtain ⟨r, hr⟩ := Option.ne_none_iff_exists'.1 hsome
    exact (exec_goRow_arrives hready he).trans (congrArg Host.Outcome.next (goWordArrives_held (s := s.commanded n e.1 u f q) (recordOf_goWord s e.1 u f q) hr hslot))
  · obtain ⟨r, hr⟩ := Option.ne_none_iff_exists'.1 hsome
    rw [BitVec.ofNat_toNat]
    exact (exec_goRow_arrives hready he).trans
      (congrArg Host.Outcome.next (goWordArrives_superseding (s := s.commanded n e.1 u f q) (recordOf_goWord s e.1 u f q) hr hslot))
  · have hthis : s = s.slotted (some p) := by rw [State.slotted, ← hslot]
    have hstill : (s.pass n).cmu.executing ≠ none := hexecuting
    have hbegin (q : Option CommandRecord) : (s.slotted q).begin n = (s.pass n).slotted q :=
      begin_of_settled (settled_slotted hs hexecuting q) n
    have hrow {c : Instr} (f : State → State) (hexec : ∀ v, exec c v = .next (f (v.begin n)))
        (hresumed : (f ((s.pass n).slotted none)).Resumed (f ((s.pass n).slotted (some p))) p)
        (ht : exec c (s.slotted none) = .next t) : ∃ r, exec c (s.slotted (some p)) = .next r ∧ t.Resumed r p :=
      resumed_of_row (fun q => by rw [hexec, hbegin]) hresumed ht
    have hgoal : ∃ r, exec c (s.slotted (some p)) = .next r ∧ t.Resumed r p := by
      simp only [List.mem_cons, List.not_mem_nil, or_false] at hc
      rcases hc with rfl | rfl | rfl | rfl | rfl | rfl | rfl | rfl
      · exact hrow (fun v => v.acceptFrameWrite (BitVec.ofNat 18 (0x400 + o.toNat)) data be) (fun _ => rfl)
          (resumed_stagingWrite hstill p o data be) ht
      · exact hrow State.leaveFifo (fun _ => rfl) (resumed_leaveFifo hstill p) ht
      · exact hrow (fun v => v.edge l) (fun _ => rfl) (resumed_edge hstill p l) ht
      · exact hrow (fun v => v.deadlineFalls l) (fun _ => rfl) (resumed_deadlineFalls hstill p l) ht
      · exact hrow (fun v => v.syntheticFalls l) (fun _ => rfl) (resumed_syntheticFalls hstill p l) ht
      · exact hrow State.scanEnds (fun _ => rfl) (resumed_scanEnds p) ht
      · have hswap (q : Option CommandRecord) := exec_laneSwap_of_settled (settled_slotted hs hexecuting q) n l
        by_cases hsorting : (s.lane l).mode.sorting = true
        · refine resumed_of_row (n := n) (f := fun v => v.swapAtEntry l) (fun q => ?_) (resumed_swapAtEntry hstill p l) ht
          rw [hswap, State.slotted_lane, if_pos hsorting, State.slotted_pass]
        · refine resumed_of_row (n := n) (f := fun v => v.swapOutside l) (fun q => ?_) (resumed_swapOutside (s := s.pass n) p l) ht
          rw [hswap, State.slotted_lane, if_neg hsorting, State.slotted_pass]
      · exact hrow State.partCompletes (fun _ => rfl) (resumed_partCompletes hstill p) ht
    obtain ⟨r, hr, hresumed⟩ := hgoal
    rw [← hthis] at hr
    rw [hr, hresumed]

end Sys2Proof.Machine

/-! ## Proofs: the capture of a lane (O25) -/
namespace Sys2Proof.Machine

/-! ### Work that leaves the capture -/

/-- Work that neither takes a capture nor reaches the boundary it waits for, nor touches the pending slot. -/
structure State.SameCapture (s t : State) : Prop where
  wait : t.cmu.captureWait = s.cmu.captureWait
  due : t.cmu.captureDue = s.cmu.captureDue
  capture : t.rwu.capture = s.rwu.capture
  slot : t.cmu.slot = s.cmu.slot

namespace State.SameCapture

theorem refl (s : State) : s.SameCapture s := ⟨rfl, rfl, rfl, rfl⟩

theorem trans {s t u : State} (h : s.SameCapture t) (k : t.SameCapture u) : s.SameCapture u :=
  ⟨k.wait.trans h.wait, k.due.trans h.due, k.capture.trans h.capture, k.slot.trans h.slot⟩

theorem of_units {s t : State} (hcmu : t.cmu = s.cmu) (hrwu : t.rwu = s.rwu) : s.SameCapture t := by
  constructor
  · rw [hcmu]
  · rw [hcmu]
  · rw [hrwu]
  · rw [hcmu]

end State.SameCapture

theorem enqueue_capture (w : Rwu) (r : Record) : (w.enqueue r).capture = w.capture := by
  unfold Rwu.enqueue
  split <;> rfl

theorem foldl_enqueue_capture (rs : List Record) (w : Rwu) : (rs.foldl Rwu.enqueue w).capture = w.capture := by
  induction rs generalizing w with
  | nil => rfl
  | cons r rs ih => exact (ih _).trans (enqueue_capture w r)

section
variable (s : State) (l : LaneId)

theorem sameCapture_setLane (x : Lane) : s.SameCapture (s.setLane l x) := .of_units (setLane_cmu _ _ _) (setLane_rwu _ _ _)

theorem sameCapture_modLane (f : Lane → Lane) : s.SameCapture (s.modLane l f) := .of_units (modLane_cmu _ _ _) (modLane_rwu _ _ _)

theorem sameCapture_record (r : Record) : s.SameCapture (s.record r) := ⟨rfl, rfl, enqueue_capture _ _, rfl⟩

theorem sameCapture_apply (w : Lane × List Record) : s.SameCapture (s.apply l w) where
  wait := by rw [apply_cmu]
  due := by rw [apply_cmu]
  capture := by rw [apply_rwu, foldl_enqueue_capture]
  slot := by rw [apply_cmu]

theorem sameCapture_completeCommand (c : CommandStatus) (d : Word) : s.SameCapture (s.completeCommand c d) where
  wait := by rw [completeCommand_cmu]
  due := by rw [completeCommand_cmu]
  capture := by
    unfold State.completeCommand
    split
    · exact enqueue_capture _ _
    · rfl
  slot := by rw [completeCommand_cmu]

theorem sameCapture_endCommit (c : CommandStatus) (d : Word) : s.SameCapture (s.endCommit c d) :=
  (show s.SameCapture { s with rtu := { s.rtu with commit := .idle } } from .of_units rfl rfl).trans
    (sameCapture_completeCommand _ c d)

theorem sameCapture_swapLane : s.SameCapture (s.swapLane l) := by
  cases hw : s.swapWaiting l with
  | false =>
    rw [swapLane_of_not_waiting hw]
    exact .refl s
  | true =>
    obtain ⟨m, w, hcommit⟩ := swapping_of_swapWaiting hw
    have htaken := sameCapture_modLane s l fun x => x.takeTable s.rtu.staged l
    rw [swapLane_of_waiting hcommit hw]
    split
    · exact htaken.trans (sameCapture_endCommit _ _ _)
    · exact htaken.trans (.of_units rfl rfl)

theorem sameCapture_settleSwap : s.SameCapture (s.settleSwap l) := by
  unfold State.settleSwap
  split
  · exact .refl s
  · exact sameCapture_swapLane s l

theorem sameCapture_takeSnapshot (c : SnapshotCause) : s.SameCapture (s.takeSnapshot l c) :=
  ⟨rfl, rfl, by cases l <;> rfl, rfl⟩

theorem sameCapture_setMode (m : LaneMode) (c : ModeCause) (q : BitVec 16) : s.SameCapture (s.setMode l m c q) :=
  (sameCapture_setLane s l _).trans (sameCapture_record _ _)

/-! ### The intake -/

theorem sameCapture_damageLine (a : Assembly) (r : LineFaultReason) : s.SameCapture (s.damageLine l a r) :=
  (sameCapture_modLane s l _).trans (sameCapture_record _ _)

theorem sameCapture_handVoid (b : Bool) : s.SameCapture (s.handVoid l b) :=
  (sameCapture_swapLane s l).trans (sameCapture_apply _ l _)

theorem sameCapture_handSkipped (n : Nat) : s.SameCapture (s.handSkipped l n) := by
  induction n generalizing s with
  | zero => exact .refl s
  | succ n ih => exact (sameCapture_handVoid s l true).trans (ih _)

theorem sameCapture_finishLine (a : Assembly) (d : Word) : s.SameCapture (s.finishLine l a d) := by
  unfold State.finishLine
  dsimp only
  split
  · exact (((sameCapture_damageLine s l a _).trans (sameCapture_handSkipped _ l _)).trans (sameCapture_handVoid _ l _)).trans
      (sameCapture_modLane _ l _)
  · exact (((sameCapture_modLane s l _).trans (sameCapture_handSkipped _ l _)).trans (sameCapture_apply _ l _)).trans
      (sameCapture_modLane _ l _)

theorem sameCapture_judgedHeader (slot : BitVec 4) (h : BitVec 16) {f : LineNo → State} (hf : ∀ n, s.SameCapture (f n)) :
    s.SameCapture (s.judgedHeader l slot h f) := by
  unfold State.judgedHeader
  split
  · exact (sameCapture_modLane s l _).trans (sameCapture_record _ _)
  · exact (sameCapture_modLane s l _).trans (sameCapture_record _ _)
  · exact hf _

theorem sameCapture_judgeSorting (e : FifoEntry) : s.SameCapture (s.judgeSorting l e) := by
  have hstray := sameCapture_modLane s l Lane.stray
  have haccepted (t : State) (slot : BitVec 4) (h : BitVec 16) : t.SameCapture
      (t.judgedHeader l slot h fun n => (t.swapLane l).modLane l fun x => x.openLine slot h n) :=
    sameCapture_judgedHeader t l slot h fun n => (sameCapture_swapLane t l).trans (sameCapture_modLane _ l _)
  unfold State.judgeSorting
  dsimp only
  split
  · unfold State.sortingHeader
    dsimp only
    split
    · exact (sameCapture_damageLine s l _ _).trans (haccepted _ _ _)
    · exact haccepted _ _ _
  · exact hstray
  · exact sameCapture_modLane s l _
  · exact sameCapture_modLane s l _
  · exact hstray
  · unfold State.endWord
    split
    · split
      · exact sameCapture_finishLine s l _ _
      · exact hstray
    · exact hstray
  · exact hstray
  · exact .refl s

theorem sameCapture_judgeEntry (e : FifoEntry) : s.SameCapture (s.judgeEntry e) := by
  unfold State.judgeEntry
  dsimp only
  split
  · exact .refl s
  · exact sameCapture_judgeSorting s _ e
  · exact sameCapture_judgeSorting s _ e
  · unfold State.judgeHolding
    split
    · exact sameCapture_judgedHeader s _ _ _ fun n => sameCapture_modLane s _ _
    · exact sameCapture_modLane s _ _
    all_goals exact .refl s
  · exact .refl s

theorem sameCapture_expire (n : Nat) : s.SameCapture (s.expire l n) := by
  induction n generalizing s with
  | zero => exact .refl s
  | succ n ih =>
    have hlate (t : State) (e : LineNo) : t.SameCapture (((t.handVoid l false).setExpected l e).expire l n) :=
      ((sameCapture_handVoid t l false).trans (sameCapture_modLane _ l _)).trans (ih _)
    unfold State.expire
    dsimp only
    split
    · split
      · split
        · exact (sameCapture_damageLine s l _ _).trans (hlate _ _)
        · exact hlate s _
      · exact hlate s _
    · exact .refl s

theorem sameCapture_intakeLineStart : s.SameCapture (s.intakeLineStart l) := by
  unfold State.intakeLineStart
  dsimp only
  split
  · exact .refl s
  · exact sameCapture_expire s l _
  · exact sameCapture_expire s l _
  · exact sameCapture_modLane s l _
  · exact .refl s

/-! ### The end of an intake event -/

/-- Only the lines it has handed make the end of an intake event a boundary (R160). -/
theorem closeIntake_capture (y : Lane) :
    (s.closeIntake l y).cmu.captureWait = s.cmu.captureWait ∧ (s.closeIntake l y).rwu.capture = s.rwu.capture ∧
      (s.closeIntake l y).cmu.captureDue =
        if (s.lane l).counters.linesProcessed ≠ y.counters.linesProcessed ∧ s.cmu.captureWait = some l then true
        else s.cmu.captureDue := by
  obtain ⟨n, hn⟩ : ∃ n, n = linesHanded y.counters.linesProcessed (s.lane l).counters.linesProcessed := ⟨_, rfl⟩
  have hhanded : 0 < n ↔ (s.lane l).counters.linesProcessed ≠ y.counters.linesProcessed := by
    have hzero : ((s.lane l).counters.linesProcessed - y.counters.linesProcessed).toNat = 0 ↔
        (s.lane l).counters.linesProcessed = y.counters.linesProcessed :=
      ⟨fun h => sub_eq_zero.1 (BitVec.eq_of_toNat_eq h), fun h => by rw [h, sub_self]; rfl⟩
    rw [hn, linesHanded, Nat.pos_iff_ne_zero, Ne, hzero]
  have hsnapshot : s.SameCapture (s.intervalSnapshot l y.counters.linesProcessed n) := by
    unfold State.intervalSnapshot
    dsimp only
    split
    · exact sameCapture_takeSnapshot s l _
    · exact .refl s
  obtain ⟨u, hu⟩ : ∃ u, u = s.intervalSnapshot l y.counters.linesProcessed n := ⟨_, rfl⟩
  rw [← hu] at hsnapshot
  have hclose : s.closeIntake l y = (u.lineBoundary l n).evaluateDrain l y.quiet n := by rw [hu, hn]; rfl
  rw [hclose, evaluateDrain_eq, modLane_cmu, modLane_rwu, State.lineBoundary, hsnapshot.wait, ← hsnapshot.due,
    ← hsnapshot.capture]
  by_cases hdue : (s.lane l).counters.linesProcessed ≠ y.counters.linesProcessed ∧ s.cmu.captureWait = some l
  · rw [if_pos hdue, if_pos (show 0 < n ∧ s.cmu.captureWait = some l from ⟨hhanded.2 hdue.1, hdue.2⟩)]
    exact ⟨hsnapshot.wait, rfl, rfl⟩
  · rw [if_neg hdue, if_neg (show ¬(0 < n ∧ s.cmu.captureWait = some l) from fun h => hdue ⟨hhanded.1 h.1, h.2⟩)]
    exact ⟨hsnapshot.wait, rfl, rfl⟩

end

end Sys2Proof.Machine

/-! ## Proofs: a capture that is taken (section 8.5; O25) -/
namespace Sys2Proof.Machine

/-! ### The snapshot -/

/-- No capture waits any more, and the capture buffer holds `c`. -/
structure State.Captured (t : State) (c : Capture) : Prop where
  wait : t.cmu.captureWait = none
  due : t.cmu.captureDue = false
  capture : t.rwu.capture = some c

theorem State.Captured.then {t u : State} {c : Capture} (h : t.Captured c) (k : t.SameCapture u) : u.Captured c :=
  ⟨k.wait.trans h.wait, k.due.trans h.due, k.capture.trans h.capture⟩

/-- The snapshot of a lane for the executing command (R161). -/
theorem takeCapture_eq {s : State} {r : CommandRecord} (hr : s.cmu.executing = some r) (l : LaneId) :
    s.takeCapture l =
      { s with
        rwu := { s.rwu with capture := some (captureOf (s.lane l) l r.seq s.events) }
        cmu := { s.cmu with captureWait := none, captureDue := false } } := by
  unfold State.takeCapture
  rw [hr]
  rfl

theorem captureIfWaiting_of_waiting {s : State} {l : LaneId} (h : s.cmu.captureWait = some l) : s.captureIfWaiting l = s.takeCapture l :=
  if_pos h

theorem captureIfWaiting_of_other {s : State} {l : LaneId} (h : s.cmu.captureWait ≠ some l) : s.captureIfWaiting l = s := if_neg h

theorem captured_captureIfWaiting {s : State} {l : LaneId} {r : CommandRecord} (hwait : s.cmu.captureWait = some l)
    (hr : s.cmu.executing = some r) : (s.captureIfWaiting l).Captured (captureOf (s.lane l) l r.seq s.events) := by
  rw [captureIfWaiting_of_waiting hwait, takeCapture_eq hr]
  exact ⟨rfl, rfl, rfl⟩

/-! ### CAPTURE_STATE and CAPTURE_SNAPSHOT -/

/-- CAPTURE_STATE of lane `l` waits for a line boundary, or is taken at once (R160). -/
theorem commandCapture_eq {t : State} {r : CommandRecord} {l : LaneId} (hl : r.laneField = laneFieldOf l) :
    t.commandCapture r =
      if (t.lane l).mode.sorting = true ∧ (t.lane l).clock.state ≠ .waiting then
        { t with cmu := { t.cmu with executing := some r, captureWait := some l } }
      else
        { t with
          rwu := { t.rwu with capture := some (captureOf (t.lane l) l r.seq t.events) }
          cmu := { t.cmu with executing := some r, captureWait := none, captureDue := false } } := by
  obtain ⟨u, hu⟩ : ∃ u : State, u = t.execute r := ⟨_, rfl⟩
  have hlane : u.lane l = t.lane l := by rw [hu]; cases l <;> rfl
  rw [State.commandCapture, withLane_of_lane _ hl, ← hu, State.beginCapture, hlane]
  by_cases hwaits : (t.lane l).mode.sorting = true ∧ (t.lane l).clock.state ≠ .waiting
  · rw [if_pos hwaits, if_pos (by simpa using hwaits), hu]
    rfl
  · rw [if_neg hwaits, if_neg (by simpa using hwaits), takeCapture_eq (r := r) (by rw [hu]; rfl), hlane, hu]
    rfl

/-- CAPTURE_SNAPSHOT takes what is owed and no more (R160). -/
theorem settleCapture_of_due {s : State} {l : LaneId} (hwait : s.cmu.captureWait = some l) (hdue : s.cmu.captureDue = true) :
    s.settleCapture = s.takeCapture l := by
  simp only [State.settleCapture, hwait, hdue, if_true]

theorem settleCapture_of_not_due {s : State} (h : s.cmu.captureWait = none ∨ s.cmu.captureDue = false) : s.settleCapture = s := by
  obtain hwait | hdue := h
  · exact settleCapture_of_no_wait hwait
  · unfold State.settleCapture
    split
    · rw [hdue, if_neg Bool.false_ne_true]
    · rfl

/-- A settled part's waiting capture has not reached its boundary. -/
theorem captureDue_of_settled {s : State} (hs : s.Settled) {l : LaneId} (hwait : s.cmu.captureWait = some l) :
    s.cmu.captureDue = false := by
  by_contra hdue
  have hsame := (settle_parts hs).1
  rw [settleCapture_of_due hwait (by simpa using hdue)] at hsame
  have hnone := congrArg (fun t : State => t.cmu.captureWait) hsame
  rw [hwait] at hnone
  cases hnone

/-! ### The HOLD entry -/

theorem enterHold_eq (s : State) (l : LaneId) :
    ∃ u, u = s.captureIfWaiting l ∧ u.SameCapture (s.enterHold l) ∧ (s.enterHold l).cmu = u.cmu := by
  refine ⟨_, rfl, ?_, ?_⟩
  · exact ((sameCapture_setMode _ l _ _ _).trans (sameCapture_modLane _ l _)).trans (sameCapture_takeSnapshot _ l _)
  · show (((s.captureIfWaiting l).setMode l .hold .drained 0).modLane l Lane.discardAssembly).cmu = (s.captureIfWaiting l).cmu
    rw [modLane_cmu, (setMode_rest _ l _ _ _).2.2.1]

/-- The capture that waits for a lane shows it as it stood before the HOLD entry (R160, log entry 11). -/
theorem captured_enterHold {s : State} {l : LaneId} {r : CommandRecord} (hwait : s.cmu.captureWait = some l)
    (hr : s.cmu.executing = some r) : (s.enterHold l).Captured (captureOf (s.lane l) l r.seq s.events) := by
  obtain ⟨u, rfl, hsame, -⟩ := enterHold_eq s l
  exact (captured_captureIfWaiting hwait hr).then hsame

theorem sameCapture_enterHold {s : State} {l : LaneId} (h : s.cmu.captureWait ≠ some l) : s.SameCapture (s.enterHold l) := by
  obtain ⟨u, hu, hsame, -⟩ := enterHold_eq s l
  rw [hu, captureIfWaiting_of_other h] at hsame
  exact hsame

theorem sameCapture_settleDrain {s : State} {l : LaneId} (h : s.cmu.captureWait ≠ some l) : s.SameCapture (s.settleDrain l) := by
  unfold State.settleDrain
  split
  · exact sameCapture_enterHold h
  · exact .refl s

/-- DRAIN_CONDITION takes the capture of its lane with the lane as it stood in DRAIN (R156, R160). -/
theorem drainCondition_captures {s : State} {after : Nat} {l : LaneId} {r : CommandRecord} (hwait : s.cmu.captureWait = some l)
    (hr : s.cmu.executing = some r) (hdrain : (s.lane l).mode = .drain) (hdue : (s.lane l).drainDue = true) :
    ∃ t, exec (.drainCondition after l) s = .next t ∧
      t.lane l = { s.lane l with mode := .hold, drainDue := false, assembly := none } ∧
      t.lane l.other = s.lane l.other ∧ t.rtu = s.rtu ∧ t.ptu = s.ptu ∧
      t.cmu = { s.cmu with captureWait := none, captureDue := false } ∧
      t.rwu.capture = some (captureOf (s.lane l) l r.seq s.events) := by
  obtain ⟨u, hu⟩ : ∃ u, u = s.settleCapture := ⟨_, rfl⟩
  obtain ⟨hulane, hurtu, huptu, hucapture⟩ : (∀ m, u.lane m = s.lane m) ∧ u.rtu = s.rtu ∧ u.ptu = s.ptu ∧
      u.captureIfWaiting l = s.takeCapture l := by
    cases hreached : s.cmu.captureDue with
    | false =>
      rw [hu, settleCapture_of_not_due (.inr hreached)]
      exact ⟨fun _ => rfl, rfl, rfl, captureIfWaiting_of_waiting hwait⟩
    | true =>
      rw [hu, settleCapture_of_due hwait hreached]
      exact ⟨fun m => by cases m <;> rfl, rfl, rfl, captureIfWaiting_of_other (by rw [takeCapture_eq hr]; nofun)⟩
  have hsettle : u.settleDrain l = u.enterHold l := by rw [State.settleDrain, if_pos (by rw [hulane]; exact ⟨hdrain, hdue⟩)]
  obtain ⟨v, hv, hsame, hcmu⟩ := enterHold_eq u l
  have htaken : v = s.takeCapture l := hv.trans hucapture
  rw [takeCapture_eq hr] at htaken
  refine ⟨(u.enterHold l).pass after, ?_, ?_, ?_, ?_, ?_, ?_, ?_⟩
  · show Host.Outcome.next ((s.settleCapture.settleDrain l).pass after) = _
    rw [← hu, hsettle]
  · rw [pass_lane, enterHold_lane, hulane]
  · rw [pass_lane, (worked_enterHold u (Set.mem_singleton l)).other _ (other_lane_ne l), hulane]
  · rw [pass_rtu, enterHold_rtu, hurtu]
  · rw [pass_ptu, (samePath_enterHold u l).ptu, huptu]
  · rw [pass_cmu, hcmu, htaken]
  · rw [pass_rwu, hsame.capture, htaken]

/-! ### The loss of the clock -/

/-- The capture that waits for a lane shows its clock LOST (R160, log entry 11). -/
theorem captured_loseClock {s : State} {l : LaneId} {r : CommandRecord} (hwait : s.cmu.captureWait = some l)
    (hr : s.cmu.executing = some r) :
    (s.loseClock l).Captured (captureOf { s.lane l with clock := { (s.lane l).clock with state := .lost, nextSynthetic := none } } l
      r.seq s.events) := by
  obtain ⟨u, hu⟩ : ∃ u, u = s.modClock l fun c => { c with state := .lost, nextSynthetic := none } := ⟨_, rfl⟩
  obtain ⟨v, hv⟩ : ∃ v, v = u.recordClock l .lost none (u.lane l).clock.episode := ⟨_, rfl⟩
  have hlane : v.lane l = { s.lane l with clock := { (s.lane l).clock with state := .lost, nextSynthetic := none } } := by
    rw [hv, State.recordClock, record_lane, hu, State.modClock, lane_modLane_self]
  have hcmu : v.cmu = s.cmu := by
    rw [hv, hu]
    exact modLane_cmu _ _ _
  have hevents : v.events = s.events := by
    rw [hv, hu]
    exact ((samePath_modClock s l _).trans (samePath_recordClock _ l _ _ _)).events
  have hlose : s.loseClock l = v.faultLane l := by rw [hv, hu]; rfl
  rw [hlose, ← hlane, ← hevents]
  exact (captured_captureIfWaiting (by rw [hcmu, hwait]) (by rw [hcmu, hr])).then
    (((sameCapture_setMode _ l _ _ _).trans (sameCapture_apply _ l _)).trans (sameCapture_takeSnapshot _ l _))

theorem sameCapture_loseClock {s : State} {l : LaneId} (h : s.cmu.captureWait ≠ some l) : s.SameCapture (s.loseClock l) := by
  obtain ⟨u, hu⟩ : ∃ u, u = s.modClock l fun c => { c with state := .lost, nextSynthetic := none } := ⟨_, rfl⟩
  obtain ⟨v, hv⟩ : ∃ v, v = u.recordClock l .lost none (u.lane l).clock.episode := ⟨_, rfl⟩
  have hsv : s.SameCapture v := by
    rw [hv, hu]
    exact (sameCapture_modLane s l _).trans (sameCapture_record _ _)
  have hvwait : v.captureIfWaiting l = v := captureIfWaiting_of_other (by rw [hsv.wait]; exact h)
  have hlose : s.loseClock l = v.faultLane l := by rw [hv, hu]; rfl
  rw [hlose, State.faultLane, hvwait]
  exact ((hsv.trans (sameCapture_setMode v l _ _ _)).trans (sameCapture_apply _ l _)).trans (sameCapture_takeSnapshot _ l _)

end Sys2Proof.Machine

/-! ## Proofs: the capture of a lane at the steps of its clock (sections 8.4, 8.5; O25) -/
namespace Sys2Proof.Machine

/-! ### Work between the line boundaries -/

/-- Work that keeps the mode of lane `l`, hands none of its lines and takes no capture. -/
structure State.BetweenLines (l : LaneId) (s t : State) : Prop extends s.SameCapture t where
  mode : (t.lane l).mode = (s.lane l).mode
  processed : (t.lane l).counters.linesProcessed = (s.lane l).counters.linesProcessed

theorem tickOf_processed (now : Nat) (x : Lane) (k : Nat) :
    (tickOf now x k).counters.linesProcessed = x.counters.linesProcessed := by
  have hfold (fs : List Firing) (y : Lane) :
      (fs.foldl (dueTaken now) y).counters.linesProcessed = y.counters.linesProcessed := by
    induction fs generalizing y with
    | nil => rfl
    | cons f fs ih =>
      have hone : (dueTaken now y f).counters.linesProcessed = y.counters.linesProcessed := by
        unfold dueTaken
        dsimp only
        split <;> rfl
      exact (ih _).trans hone
  exact hfold _ _

namespace State.BetweenLines

variable {l : LaneId} {s t u : State}

theorem refl (s : State) : s.BetweenLines l s := ⟨.refl s, rfl, rfl⟩

theorem trans (h : s.BetweenLines l t) (k : t.BetweenLines l u) : s.BetweenLines l u :=
  ⟨h.toSameCapture.trans k.toSameCapture, k.mode.trans h.mode, k.processed.trans h.processed⟩

end State.BetweenLines

section
variable (s : State) (l : LaneId)

theorem betweenLines_setLane {x : Lane} (hmode : x.mode = (s.lane l).mode)
    (hprocessed : x.counters.linesProcessed = (s.lane l).counters.linesProcessed) : s.BetweenLines l (s.setLane l x) :=
  ⟨sameCapture_setLane s l x, by rw [lane_setLane_self, hmode], by rw [lane_setLane_self, hprocessed]⟩

theorem betweenLines_modLane {f : Lane → Lane} (hmode : (f (s.lane l)).mode = (s.lane l).mode)
    (hprocessed : (f (s.lane l)).counters.linesProcessed = (s.lane l).counters.linesProcessed) :
    s.BetweenLines l (s.modLane l f) :=
  ⟨sameCapture_modLane s l f, by rw [lane_modLane_self, hmode], by rw [lane_modLane_self, hprocessed]⟩

theorem betweenLines_modClock (f : Clock → Clock) : s.BetweenLines l (s.modClock l f) := betweenLines_modLane s l rfl rfl

theorem betweenLines_record (r : Record) : s.BetweenLines l (s.record r) :=
  ⟨sameCapture_record s r, by rw [record_lane], by rw [record_lane]⟩

theorem betweenLines_takeTick (k : Nat) : s.BetweenLines l (s.takeTick l k) := by
  rw [takeTick_eq_setLane]
  exact betweenLines_setLane s l (by rw [tickOf_same]) (tickOf_processed _ _ _)

theorem betweenLines_beginLine (stamp : Nat) : s.BetweenLines l (s.beginLine l stamp) :=
  (betweenLines_modClock s l _).trans (betweenLines_takeTick _ l 0)

theorem betweenLines_reachedTicks (n : Nat) : s.BetweenLines l (s.reachedTicks l n) := by
  induction n generalizing s with
  | zero => exact .refl s
  | succ n ih =>
    rw [State.reachedTicks]
    split
    · exact (betweenLines_takeTick s l _).trans (ih _)
    · exact .refl s

theorem betweenLines_measureEdge (m : Nat) : s.BetweenLines l (s.modLane l fun x => x.measureEdge m) := by
  refine betweenLines_modLane s l (measureEdge_keeps _ m).1 ?_
  unfold Lane.measureEdge
  dsimp only
  split
  · rfl
  · split <;> rfl

end

/-! ### Several ticks -/

/-- A drain condition found at a tick holds for the lane after it. -/
theorem drained_of_found {now k : Nat} {x : Lane} (hdue : x.drainDue = false) (h : (tickOf now x k).drainDue = true) :
    (tickOf now x k).drained = true := by
  rw [tickOf_taken] at h ⊢
  dsimp only [drainFound] at h
  split at h
  · exact h
  · rw [hdue] at h
    cases h

/-- The ticks left of a line up to one of them are taken in rising order. -/
theorem ticksLeft_upto (c : Clock) {k : Nat} (hk : k ≤ 15) : ticksLeft c k = List.range' (c.k + 1) (k - c.k) := by
  have hall : ∀ a b : Fin 16, ((List.range 16).filter fun j => decide (a.val < j ∧ j ≤ b.val)) =
      List.range' (a.val + 1) (b.val - a.val) := by
    decide
  by_cases hc : c.k < 16
  · exact hall ⟨c.k, hc⟩ ⟨k, by omega⟩
  · rw [ticksLeft, List.filter_eq_nil_iff.2 (fun j _ => by rw [decide_eq_true_eq]; omega), Nat.sub_eq_zero_of_le (by omega)]
    rfl

/-- Ticks of a lane that no capture waits for take none. -/
theorem sameCapture_ticksFrom {s : State} {l : LaneId} (h : s.cmu.captureWait ≠ some l) (k n : Nat) :
    s.SameCapture (s.ticksFrom l k n) := by
  induction n generalizing s k with
  | zero => exact .refl s
  | succ n ih =>
    have htick := (betweenLines_takeTick s l k).toSameCapture
    have hdrain := htick.trans (sameCapture_settleDrain (by rw [htick.wait]; exact h))
    have hswap := hdrain.trans (sameCapture_settleSwap _ l)
    exact hswap.trans (ih (by rw [hswap.wait]; exact h) (k + 1))

/-- From `s` to `t` the lane has entered HOLD at one of the ticks `k`, `k + 1`, ..., and its capture shows it after that tick. -/
structure State.HoldCaptured (l : LaneId) (r : CommandRecord) (k n : Nat) (s t : State) : Prop where
  mode : (t.lane l).mode = .hold
  drain : (s.lane l).mode = .drain
  slot : t.cmu.slot = s.cmu.slot
  taken : ∃ m, 1 ≤ m ∧ m ≤ n ∧ (ticksOf s.now (List.range' k m) (s.lane l)).drained = true ∧
    t.Captured (captureOf (ticksOf s.now (List.range' k m) (s.lane l)) l r.seq s.events)

/-- Further work that leaves the capture keeps it. -/
theorem State.HoldCaptured.then {l : LaneId} {r : CommandRecord} {k n : Nat} {s t u : State} (h : s.HoldCaptured l r k n t)
    (htu : t.SameCapture u) (hmode : (u.lane l).mode = (t.lane l).mode) : s.HoldCaptured l r k n u where
  mode := hmode.trans h.mode
  drain := h.drain
  slot := htu.slot.trans h.slot
  taken := by
    obtain ⟨m, hlow, hhigh, hdrained, hcaptured⟩ := h.taken
    exact ⟨m, hlow, hhigh, hdrained, hcaptured.then htu⟩

/-- The HOLD entry at the first of several ticks takes the capture; the ticks after it find none waiting. -/
theorem holdCaptured_of_enterHold {s : State} {l : LaneId} {r : CommandRecord} {y : Lane} {k n : Nat}
    (hy : y = tickOf s.now (s.lane l) k) (hwait : s.cmu.captureWait = some l) (hr : s.cmu.executing = some r)
    (hdrain : (s.lane l).mode = .drain) (hdue : (s.lane l).drainDue = false) (hfound : y.drainDue = true) (hk : k + n ≤ 15) :
    s.HoldCaptured l r k (n + 1) (((((s.setLane l y).enterHold l).swapLane l)).ticksFrom l (k + 1) n) := by
  obtain ⟨u, hu⟩ : ∃ u, u = ((s.setLane l y).enterHold l).swapLane l := ⟨_, rfl⟩
  rw [hy] at hfound
  obtain ⟨hobjects, hquiet⟩ := tickOf_drained hdue hfound
  have hkept : (s.lane l).Kept y := by
    rw [hy, ← takeTick_tickOf]
    exact (worked_takeTick s (Set.mem_singleton l) (by omega)).lanes l
  have hheld := heldAt_of_enterHold (s := s) (l := l) (y := y) rfl hdrain (by rw [hy]; exact hobjects) (by rw [hy]; exact hquiet) hkept
  have hentered := captured_enterHold (s := s.setLane l y) (l := l) (r := r) (by rw [setLane_cmu, hwait]) (by rw [setLane_cmu, hr])
  rw [lane_setLane_self, (samePath_setLane s l y).events] at hentered
  have hswapped := hentered.then (sameCapture_swapLane _ l)
  rw [← hu] at hswapped hheld
  have hlater := sameCapture_ticksFrom (s := u) (l := l) (by rw [hswapped.wait]; nofun) (k + 1) n
  have hslot : u.cmu.slot = s.cmu.slot := hheld.work.slot
  rw [← hu]
  refine ⟨(hheld.ticksFrom (by omega)).mode, hdrain, hlater.slot.trans hslot, 1, le_refl 1, by omega, ?_, ?_⟩
  · exact drained_of_found hdue hfound
  · have hone : ticksOf s.now (List.range' k 1) (s.lane l) = y := by rw [hy]; rfl
    rw [hone]
    exact hswapped.then hlater

/-- The ticks of a line taken at once, with a capture of the lane waiting. -/
theorem ticksFrom_capture {s : State} {l : LaneId} {r : CommandRecord} (hwait : s.cmu.captureWait = some l)
    (hr : s.cmu.executing = some r) (hswap : (s.lane l).mode.sorting = false → s.swapWaiting l = false)
    (hdue : (s.lane l).mode = .drain → (s.lane l).drainDue = false) {k n : Nat} (hk : k + n ≤ 16) :
    s.BetweenLines l (s.ticksFrom l k n) ∨ s.HoldCaptured l r k n (s.ticksFrom l k n) := by
  induction n generalizing s k with
  | zero => exact .inl (.refl s)
  | succ n ih =>
    obtain ⟨y, hy⟩ : ∃ y, y = tickOf s.now (s.lane l) k := ⟨_, rfl⟩
    have hmode : y.mode = (s.lane l).mode := by rw [hy, tickOf_same]
    have hprocessed : y.counters.linesProcessed = (s.lane l).counters.linesProcessed := by rw [hy, tickOf_processed]
    have htick : s.takeTick l k = s.setLane l y := by rw [takeTick_eq_setLane, hy]
    rw [State.ticksFrom, htick]
    by_cases hentry : y.mode = .drain ∧ y.drainDue = true
    · have hdrain : (s.lane l).mode = .drain := hmode ▸ hentry.1
      have hsettle : (s.setLane l y).settleDrain l = (s.setLane l y).enterHold l := by
        rw [State.settleDrain, lane_setLane_self, if_pos hentry]
      have hhold : (((s.setLane l y).enterHold l).lane l).mode = .hold := by rw [enterHold_lane]
      have hswapped : ((s.setLane l y).enterHold l).settleSwap l = ((s.setLane l y).enterHold l).swapLane l := by
        rw [State.settleSwap, hhold]
        rfl
      rw [hsettle, hswapped]
      exact .inr (holdCaptured_of_enterHold hy hwait hr hdrain (hdue hdrain) hentry.2 (by omega))
    · have hsettle : (s.setLane l y).settleDrain l = s.setLane l y := by
        rw [State.settleDrain, lane_setLane_self, if_neg hentry]
      have hswapped : (s.setLane l y).settleSwap l = s.setLane l y := by
        unfold State.settleSwap
        rw [lane_setLane_self, hmode]
        split
        · rfl
        · rename_i hnot
          exact swapLane_of_not_waiting (by rw [swapWaiting_congr (setLane_rtu _ _ _), hswap (Bool.eq_false_iff.2 hnot)])
      have hlane : (s.setLane l y).lane l = y := lane_setLane_self _ _ _
      have hcases := ih (s := s.setLane l y) (k := k + 1) (by rw [setLane_cmu, hwait]) (by rw [setLane_cmu, hr])
        (by rw [hlane, hmode, swapWaiting_congr (setLane_rtu _ _ _)]; exact hswap)
        (by rw [hlane]; exact fun hm => Bool.eq_false_iff.2 fun hd => hentry ⟨hm, hd⟩) (by omega)
      rw [hsettle, hswapped]
      obtain hplain | hheld := hcases
      · exact .inl ((betweenLines_setLane s l hmode hprocessed).trans hplain)
      · obtain ⟨m, hlow, hhigh, hdrained, hcaptured⟩ := hheld.taken
        have hticks : ticksOf (s.setLane l y).now (List.range' (k + 1) m) ((s.setLane l y).lane l) =
            ticksOf s.now (List.range' k (m + 1)) (s.lane l) := by
          rw [hlane, setLane_now, List.range'_succ, hy]
          rfl
        rw [hticks] at hdrained hcaptured
        rw [(samePath_setLane s l y).events] at hcaptured
        refine .inr ⟨hheld.mode, ?_, ?_, m + 1, by omega, by omega, hdrained, hcaptured⟩
        · rw [← hmode, ← hlane, hheld.drain]
        · rw [hheld.slot, setLane_cmu]

/-! ### The LIU at a line start -/

/-- A line start that reaches the LIU, with no command pending: a boundary of its lane exactly when it hands lines (R160). -/
theorem reachIntake_capture {v : State} (hslot : v.cmu.slot = none) (l : LaneId) :
    (v.reachIntake l).cmu.captureWait = v.cmu.captureWait ∧ (v.reachIntake l).rwu.capture = v.rwu.capture ∧
      (v.reachIntake l).cmu.captureDue =
        if ((v.reachIntake l).lane l).counters.linesProcessed ≠ (v.lane l).counters.linesProcessed ∧
          v.cmu.captureWait = some l then true else v.cmu.captureDue := by
  have hstart := sameCapture_intakeLineStart v l
  have hslot' : (v.intakeLineStart l).cmu.slot = none := hstart.slot.trans hslot
  have hclose := closeIntake_capture (v.intakeLineStart l) l (v.lane l)
  have hlane : ((v.reachIntake l).lane l).counters = ((v.intakeLineStart l).lane l).counters := by
    rw [State.reachIntake, endIntake_of_slot_none hslot', closeIntake_lane, evaluated_counters]
  rw [hlane]
  rw [State.reachIntake, endIntake_of_slot_none hslot']
  obtain ⟨hwait, hcapture, hdue⟩ := hclose
  refine ⟨hwait.trans hstart.wait, hcapture.trans hstart.capture, hdue.trans ?_⟩
  rw [hstart.wait, hstart.due]

/-- A line start of a lane that no capture waits for. -/
theorem reachIntake_capture_of_other {v : State} (hslot : v.cmu.slot = none) {l : LaneId} (h : v.cmu.captureWait ≠ some l) :
    (v.reachIntake l).cmu.captureWait = v.cmu.captureWait ∧ (v.reachIntake l).rwu.capture = v.rwu.capture ∧
      (v.reachIntake l).cmu.captureDue = v.cmu.captureDue := by
  obtain ⟨hwait, hcapture, hdue⟩ := reachIntake_capture hslot l
  rw [if_neg fun hboth => h hboth.2] at hdue
  exact ⟨hwait, hcapture, hdue⟩

/-! ### An event of the clock -/

/-- The work of a clock event from `b` to `t`: the ticks that are left or none, steps between the lines, the LIU or nothing. -/
def State.ClockSteps (l : LaneId) (b t : State) : Prop :=
  ∃ u v, (u = b ∨ u = b.remainingTicks l) ∧ u.BetweenLines l v ∧ (t = v ∨ t = v.reachIntake l)

section
variable (s : State) (l : LaneId)

theorem clockSteps_edge : s.ClockSteps l (s.edge l) := by
  have hstays : s.ClockSteps l s := ⟨s, s, .inl rfl, .refl s, .inl rfl⟩
  have hglitch : s.ClockSteps l (s.modLane l Lane.glitch) := ⟨s, _, .inl rfl, betweenLines_modLane s l rfl rfl, .inl rfl⟩
  unfold State.edge
  dsimp only
  split
  · exact hstays
  · exact ⟨s, _, .inl rfl, ((betweenLines_beginLine s l _).trans (betweenLines_modClock _ l _)).trans (betweenLines_record _ l _),
      .inr rfl⟩
  · split
    · exact hglitch
    · exact ⟨_, _, .inr rfl, ((betweenLines_measureEdge _ l _).trans (betweenLines_beginLine _ l _)).trans
        (betweenLines_modClock _ l _), .inr rfl⟩
  · split
    · exact hglitch
    · split
      · exact ⟨_, _, .inr rfl, ((betweenLines_beginLine _ l _).trans (betweenLines_modClock _ l _)).trans
          (betweenLines_record _ l _), .inr rfl⟩
      · exact ⟨s, _, .inl rfl, (betweenLines_modClock s l _).trans (betweenLines_record _ l _), .inl rfl⟩
  · exact hstays

theorem clockSteps_syntheticStart (stamp : Nat) : s.ClockSteps l (s.syntheticStart l stamp) :=
  ⟨_, _, .inr rfl, ((betweenLines_beginLine _ l _).trans (betweenLines_reachedTicks _ l _)).trans (betweenLines_modClock _ l _),
    .inr rfl⟩

end

/-- What a clock event of a lane whose capture waits leaves of it: it waits on, its boundary reached exactly if lines were handed,
or a HOLD entry at a tick has taken it. -/
theorem State.ClockSteps.capture {l : LaneId} {b t : State} {r : CommandRecord} (h : b.ClockSteps l t)
    (hwait : b.cmu.captureWait = some l) (hnot : b.cmu.captureDue = false) (hr : b.cmu.executing = some r)
    (hslot : b.cmu.slot = none) (hswap : (b.lane l).mode.sorting = false → b.swapWaiting l = false)
    (hdue : (b.lane l).mode = .drain → (b.lane l).drainDue = false) :
    ((t.lane l).mode = (b.lane l).mode ∧ t.cmu.captureWait = some l ∧
        (t.cmu.captureDue = true ↔ (t.lane l).counters.linesProcessed ≠ (b.lane l).counters.linesProcessed)) ∨
      b.HoldCaptured l r ((b.lane l).clock.k + 1) (15 - (b.lane l).clock.k) t := by
  obtain ⟨u, v, hu, huv, ht⟩ := h
  have hticks : b.BetweenLines l u ∨ b.HoldCaptured l r ((b.lane l).clock.k + 1) (15 - (b.lane l).clock.k) u := by
    obtain rfl | rfl := hu
    · exact .inl (.refl _)
    · by_cases hk : (b.lane l).clock.k ≤ 15
      · exact ticksFrom_capture hwait hr hswap hdue (by omega)
      · rw [State.remainingTicks, Nat.sub_eq_zero_of_le (by omega)]
        exact .inl (.refl _)
  obtain hplain | hheld := hticks
  · have hv := hplain.trans huv
    left
    obtain rfl | rfl := ht
    · refine ⟨hv.mode, hv.wait.trans hwait, ?_⟩
      rw [hv.due, hnot, hv.processed]
      simp
    · have hvslot := hv.slot.trans hslot
      obtain ⟨hwaits, -, hreached⟩ := reachIntake_capture hvslot l
      rw [hv.processed, hv.wait, hv.due, hnot] at hreached
      refine ⟨(reachIntake_keeps hvslot l).1.trans hv.mode, hwaits.trans (hv.wait.trans hwait), ?_⟩
      rw [hreached]
      simp [hwait]
  · right
    have hv := hheld.then huv.toSameCapture huv.mode
    obtain rfl | rfl := ht
    · exact hv
    · have hvslot := hv.slot.trans hslot
      obtain ⟨m, -, -, -, hcaptured⟩ := hv.taken
      obtain ⟨hwaits, hcapture, hreached⟩ := reachIntake_capture_of_other hvslot (l := l) (by rw [hcaptured.wait]; nofun)
      have hslot' : (v.reachIntake l).cmu.slot = v.cmu.slot := by
        have hstart := sameCapture_intakeLineStart v l
        rw [State.reachIntake, endIntake_of_slot_none (hstart.slot.trans hvslot),
          (worked_closeIntake _ (Set.mem_singleton l) _).slot, hstart.slot]
      exact hv.then ⟨hwaits, hreached, hcapture, hslot'⟩ (reachIntake_keeps hvslot l).1

/-- A clock event of a lane that no capture waits for. -/
theorem State.ClockSteps.capture_of_other {l : LaneId} {b t : State} (h : b.ClockSteps l t) (hwait : b.cmu.captureWait ≠ some l)
    (hslot : b.cmu.slot = none) :
    t.cmu.captureWait = b.cmu.captureWait ∧ t.cmu.captureDue = b.cmu.captureDue ∧ t.rwu.capture = b.rwu.capture := by
  obtain ⟨u, v, hu, huv, ht⟩ := h
  have hbu : b.SameCapture u := by
    obtain rfl | rfl := hu
    · exact .refl _
    · exact sameCapture_ticksFrom hwait _ _
  have hv := hbu.trans huv.toSameCapture
  obtain rfl | rfl := ht
  · exact ⟨hv.wait, hv.due, hv.capture⟩
  · obtain ⟨hwaits, hcapture, hreached⟩ := reachIntake_capture_of_other (hv.slot.trans hslot) (l := l) (by rw [hv.wait]; exact hwait)
    exact ⟨hwaits.trans hv.wait, hreached.trans hv.due, hcapture.trans hv.capture⟩

end Sys2Proof.Machine

/-! ## Proofs: the rows that a waiting capture meets (section 8.5; O25) -/
namespace Sys2Proof.Machine

/-! ### An entry's intake -/

/-- An entry's intake, with no command pending, is a boundary of the capture's lane exactly when it hands a line of it. -/
theorem leaveFifo_capture {s : State} {l : LaneId} (hslot : s.cmu.slot = none) (hwait : s.cmu.captureWait = some l)
    (hnot : s.cmu.captureDue = false) :
    s.leaveFifo.cmu.captureWait = some l ∧
      (s.leaveFifo.cmu.captureDue = true ↔
        (s.leaveFifo.lane l).counters.linesProcessed ≠ (s.lane l).counters.linesProcessed) := by
  cases hfifo : s.ptu.fifo with
  | nil =>
    have hsame : s.leaveFifo = s := by simp only [State.leaveFifo, hfifo]
    rw [hsame, hnot]
    exact ⟨hwait, by simp⟩
  | cons e rest =>
    obtain ⟨t, ht⟩ : ∃ t : State, t = { s with ptu := s.ptu.leave rest } := ⟨_, rfl⟩
    obtain ⟨m, hm⟩ : ∃ m, m = ringLane e.offset := ⟨_, rfl⟩
    have hlane (k : LaneId) : t.lane k = s.lane k := by rw [ht]; cases k <;> rfl
    have hcmu : t.cmu = s.cmu := by rw [ht]
    have hjudged := sameCapture_judgeEntry t e
    have hwork := worked_judgeEntry t e
    have hleft : s.leaveFifo = (t.judgeEntry e).closeIntake m (t.lane m) := by
      have hslot' : (t.judgeEntry e).cmu.slot = none := by rw [hjudged.slot, hcmu, hslot]
      rw [← endIntake_of_slot_none hslot', hm, ht]
      simp only [State.leaveFifo, hfifo]
    rw [← hm] at hwork
    obtain ⟨hwaits, -, hdue⟩ := closeIntake_capture (t.judgeEntry e) m (t.lane m)
    have hcounters : (((t.judgeEntry e).closeIntake m (t.lane m)).lane l).counters = ((t.judgeEntry e).lane l).counters := by
      by_cases hl : l = m
      · rw [hl, closeIntake_lane, evaluated_counters]
      · rw [(worked_closeIntake (t.judgeEntry e) (Set.mem_singleton m) _).other l hl]
    rw [hjudged.wait, hjudged.due, hcmu, hwait, hnot] at hdue
    rw [hleft, hcounters]
    refine ⟨hwaits.trans (by rw [hjudged.wait, hcmu, hwait]), ?_⟩
    rw [hdue]
    by_cases hl : l = m
    · rw [hl, hlane]
      simp
    · rw [hwork.other l hl, hlane l, if_neg fun h => hl (Option.some.inj h.2)]
      simp

/-! ### The count of coast episodes, at which no tick and no capture looks -/

/-- A lane with its count of coast episodes at `n`. -/
def Lane.episodesAt (x : Lane) (n : Word) : Lane := { x with counters := { x.counters with coastEpisodes := n } }

theorem foldl_dueTaken_episodesAt (now : Nat) (n : Word) (fs : List Firing) (x : Lane) :
    fs.foldl (dueTaken now) (x.episodesAt n) = (fs.foldl (dueTaken now) x).episodesAt n := by
  induction fs generalizing x with
  | nil => rfl
  | cons f fs ih =>
    have hone : dueTaken now (x.episodesAt n) f = (dueTaken now x f).episodesAt n := by
      have hsupply : (x.episodesAt n).supplyGood = x.supplyGood := rfl
      unfold dueTaken
      dsimp only
      rw [hsupply]
      split <;> rfl
    rw [List.foldl_cons, hone, ih, List.foldl_cons]

theorem tickOf_episodesAt (now : Nat) (n : Word) (x : Lane) (k : Nat) :
    tickOf now (x.episodesAt n) k = (tickOf now x k).episodesAt n := by
  have htaken (t : TickTime) : (x.episodesAt n).takenAt now k t = (x.takenAt now k t).episodesAt n :=
    foldl_dueTaken_episodesAt now n _ (x.closedAt now k t)
  have hfound (y : Lane) : drainFound (x.episodesAt n) (y.episodesAt n) = drainFound x y := rfl
  have hclock : (x.episodesAt n).clock = x.clock := rfl
  rw [tickOf_taken, tickOf_taken, hclock, htaken, hfound]
  rfl

theorem ticksOf_episodesAt (now : Nat) (n : Word) (ks : List Nat) (x : Lane) :
    ticksOf now ks (x.episodesAt n) = (ticksOf now ks x).episodesAt n := by
  induction ks generalizing x with
  | nil => rfl
  | cons k ks ih =>
    have hone := tickOf_episodesAt now n x k
    show ticksOf now ks (tickOf now (x.episodesAt n) k) = (ticksOf now ks (tickOf now x k)).episodesAt n
    rw [hone, ih]

/-! ### The rows of the clock -/

/-- The capture waits on, its boundary reached exactly if lines were handed. -/
def State.CaptureWaits (s t : State) (l : LaneId) : Prop :=
  (t.lane l).mode = (s.lane l).mode ∧ t.cmu.captureWait = some l ∧
    (t.cmu.captureDue = true ↔ (t.lane l).counters.linesProcessed ≠ (s.lane l).counters.linesProcessed)

/-- The capture was taken at the HOLD entry, after a tick of the line that the clock `d` has begun. -/
def State.CapturedAtHold (s t : State) (n : Nat) (l : LaneId) (r : CommandRecord) (d : Clock) : Prop :=
  (t.lane l).mode = .hold ∧ (s.lane l).mode = .drain ∧ t.cmu.captureWait = none ∧ t.cmu.captureDue = false ∧
    ∃ (k : Nat) (x : Lane), (s.lane l).clock.k < k ∧ k ≤ 15 ∧
      x = ticksOf (s.now + n) (ticksLeft (s.lane l).clock k) { s.lane l with clock := d } ∧ x.drained = true ∧
      t.rwu.capture = some (captureOf x l r.seq (s.events + 1))

/-- The capture was taken at the loss of the clock. -/
def State.CapturedAtLoss (s t : State) (l : LaneId) (r : CommandRecord) : Prop :=
  (t.lane l).mode = .fault ∧ (s.lane l).mode ≠ .fault ∧
    t.Captured (captureOf { s.lane l with clock := { (s.lane l).clock with state := .lost, nextSynthetic := none } } l r.seq
      (s.events + 1))

/-- The clock from which the ticks of a row count. -/
def rowClock (c : Instr) (n : Nat) (l : LaneId) (d : Clock) : Clock :=
  if c = .coastDeadline n l then { d with state := .coasting, coastDeadline := none, episode := 0 } else d

section
variable {s : State} {n : Nat} {l : LaneId} {r : CommandRecord}

theorem captureWaits_of_stay (hwait : s.cmu.captureWait = some l) (hnot : s.cmu.captureDue = false) :
    s.CaptureWaits (s.pass n) l := by
  refine ⟨by rw [pass_lane], hwait, ?_⟩
  rw [pass_lane, pass_cmu, hnot]
  simp

/-- A HOLD entry at a tick, told from the state before the row. -/
theorem capturedAtHold_of_held {b t : State} {d : Clock} {w : Word} (hnow : b.now = s.now + n) (hevents : b.events = s.events + 1)
    (hlane : b.lane l = ({ s.lane l with clock := d } : Lane).episodesAt w) (hk : d.k = (s.lane l).clock.k)
    (h : b.HoldCaptured l r (d.k + 1) (15 - d.k) t) : s.CapturedAtHold t n l r d := by
  have hdrain : (s.lane l).mode = .drain := by
    have hmode := h.drain
    rw [hlane] at hmode
    exact hmode
  obtain ⟨m, hlow, hhigh, hdrained, hcaptured⟩ := h.taken
  rw [hnow, hlane, ticksOf_episodesAt] at hdrained hcaptured
  rw [hevents] at hcaptured
  have hlist : ticksLeft (s.lane l).clock (d.k + m) = List.range' (d.k + 1) m := by
    rw [ticksLeft_upto _ (by omega), ← hk, Nat.add_sub_cancel_left]
  refine ⟨h.mode, hdrain, hcaptured.wait, hcaptured.due, d.k + m, _, by omega, by omega, rfl, ?_, ?_⟩
  · rw [hlist]
    exact hdrained
  · rw [hlist]
    exact hcaptured.capture

variable (hs : s.Settled) (hslot : s.cmu.slot = none) (hwait : s.cmu.captureWait = some l) (hr : s.cmu.executing = some r)
include hs hslot hwait

/-- A clock row of the other lane leaves the capture. -/
theorem clockRow_capture_of_other {c : Instr} {t : State}
    (hc : c ∈ [Instr.triggerEdge n l.other, .coastDeadline n l.other, .syntheticLineStart n l.other])
    (h : exec c s = .next t) : t.cmu.captureWait = some l ∧ t.cmu.captureDue = false ∧ t.rwu.capture = s.rwu.capture := by
  have hbegin := begin_of_settled hs n
  have hnot := captureDue_of_settled hs hwait
  have hother : (s.pass n).cmu.captureWait ≠ some l.other := by
    rw [pass_cmu, hwait]
    exact fun heq => other_lane_ne l (Option.some.inj heq).symm
  have hsame : (s.pass n).cmu.captureWait = some l ∧ (s.pass n).cmu.captureDue = false ∧
      (s.pass n).rwu.capture = s.rwu.capture := ⟨hwait, hnot, rfl⟩
  have hsteps {b u : State} (hb : (s.pass n).SameCapture b) (hu : b.ClockSteps l.other u) :
      u.cmu.captureWait = some l ∧ u.cmu.captureDue = false ∧ u.rwu.capture = s.rwu.capture := by
    obtain ⟨hw, hd, hk⟩ := hu.capture_of_other (by rw [hb.wait]; exact hother) (hb.slot.trans hslot)
    exact ⟨(hw.trans hb.wait).trans hwait, (hd.trans hb.due).trans hnot, hk.trans hb.capture⟩
  simp only [List.mem_cons, List.not_mem_nil, or_false] at hc
  obtain rfl | rfl | rfl := hc
  · rw [exec_triggerEdge hs] at h
    cases h
    exact hsteps (.refl _) (clockSteps_edge _ _)
  · cases h
    rw [hbegin]
    unfold State.deadlineFalls
    dsimp only
    split
    · exact hsteps ((sameCapture_modLane _ _ Lane.enterCoasting).trans (sameCapture_record _ _)) (clockSteps_syntheticStart _ _ _)
    · exact hsame
  · cases h
    rw [hbegin]
    unfold State.syntheticFalls
    dsimp only
    split
    · split
      · split
        · have hlost := sameCapture_loseClock (l := l.other) hother
          exact ⟨hlost.wait.trans hwait, hlost.due.trans hnot, hlost.capture⟩
        · exact hsteps (.refl _) (clockSteps_syntheticStart _ _ _)
      · exact hsame
    · exact hsame

include hr

/-- The steps of a clock event from the state it begins in. -/
theorem capture_of_clockSteps {b t : State} {d : Clock} {w : Word} (hcmu : b.cmu = s.cmu) (hrtu : b.rtu = s.rtu)
    (hnow : b.now = s.now + n) (hevents : b.events = s.events + 1)
    (hlane : b.lane l = ({ s.lane l with clock := d } : Lane).episodesAt w) (hk : d.k = (s.lane l).clock.k)
    (h : b.ClockSteps l t) : s.CaptureWaits t l ∨ s.CapturedAtHold t n l r d := by
  have hcases := h.capture (r := r) (by rw [hcmu, hwait]) (by rw [hcmu, captureDue_of_settled hs hwait]) (by rw [hcmu, hr])
    (by rw [hcmu, hslot]) (by rw [hlane, swapWaiting_congr hrtu]; exact (settle_parts hs).2.2 l)
    (by rw [hlane]; exact drainDue_of_settled hs l)
  rw [hlane] at hcases
  exact hcases.imp id fun hheld => capturedAtHold_of_held hnow hevents hlane hk hheld

/-- The steps of a clock event that begins with the lane as it stands. -/
theorem capture_of_clockSteps_pass {t : State} (h : (s.pass n).ClockSteps l t) :
    s.CaptureWaits t l ∨ s.CapturedAtHold t n l r (s.lane l).clock :=
  capture_of_clockSteps hs hslot hwait hr (b := s.pass n) (w := (s.lane l).counters.coastEpisodes) rfl rfl rfl rfl (pass_lane s n l) rfl h

theorem capture_deadline : s.CaptureWaits ((s.pass n).deadlineFalls l) l ∨
    s.CapturedAtHold ((s.pass n).deadlineFalls l) n l r (rowClock (.coastDeadline n l) n l (s.lane l).clock) := by
  unfold State.deadlineFalls
  dsimp only
  split
  · obtain ⟨q, hq⟩ : ∃ q, q = Record.clockEvent l .coasting none 0 ((s.lane l).clock.ln + 1) (s.lane l).clock.period := ⟨_, rfl⟩
    obtain ⟨b, hb⟩ : ∃ b, b = ((s.pass n).modLane l Lane.enterCoasting).record q := ⟨_, rfl⟩
    have hcoast : (s.pass n).coast l = b.syntheticStart l ((s.lane l).clock.lineStart + (s.lane l).clock.period) := by
      rw [State.coast, pass_lane, hb, hq]
    have hpath : (s.pass n).SamePath b := by
      rw [hb]
      exact (samePath_modLane _ _ _).trans (samePath_record _ _)
    have hlane : b.lane l = (s.lane l).enterCoasting := by rw [hb, record_lane, lane_modLane_self, pass_lane]
    have hclock : rowClock (.coastDeadline n l) n l (s.lane l).clock =
        { (s.lane l).clock with state := .coasting, coastDeadline := none, episode := 0 } := if_pos rfl
    rw [hcoast, hclock]
    refine capture_of_clockSteps hs hslot hwait hr (b := b) (w := (s.lane l).counters.coastEpisodes + 1) ?_ ?_ hpath.now
      hpath.events hlane rfl (clockSteps_syntheticStart b l _)
    · rw [hb]
      exact modLane_cmu _ _ _
    · rw [hb]
      exact modLane_rtu _ _ _
  · exact .inl (captureWaits_of_stay hwait (captureDue_of_settled hs hwait))

theorem capture_synthetic (hsound : s.ModeSound) : s.CaptureWaits ((s.pass n).syntheticFalls l) l ∨
    s.CapturedAtHold ((s.pass n).syntheticFalls l) n l r (s.lane l).clock ∨ s.CapturedAtLoss ((s.pass n).syntheticFalls l) l r := by
  have hstay := captureWaits_of_stay (n := n) hwait (captureDue_of_settled hs hwait)
  unfold State.syntheticFalls
  dsimp only
  split
  · split
    · rename_i hdue
      split
      · rw [pass_lane] at hdue
        obtain ⟨-, hfault⟩ := (hsound.sound l).mode_of_runs (by rw [hdue.1]; nofun)
        have hcaptured := captured_loseClock (s := s.pass n) (l := l) (r := r) hwait hr
        rw [pass_lane] at hcaptured
        refine .inr (.inr ⟨?_, hfault, hcaptured⟩)
        rw [State.loseClock, faultLane_lane, stopBlocks_mode]
      · exact (capture_of_clockSteps_pass hs hslot hwait hr (clockSteps_syntheticStart _ l _)).imp id .inl
    · exact .inl hstay
  · exact .inl hstay

/-- What a clock row of a lane does to the capture that waits for it. -/
theorem clockRow_capture (hsound : s.ModeSound) {c : Instr} {t : State}
    (hc : c ∈ [Instr.triggerEdge n l, .coastDeadline n l, .syntheticLineStart n l]) (h : exec c s = .next t) :
    s.CaptureWaits t l ∨ s.CapturedAtHold t n l r (rowClock c n l (s.lane l).clock) ∨ s.CapturedAtLoss t l r := by
  have hbegin := begin_of_settled hs n
  simp only [List.mem_cons, List.not_mem_nil, or_false] at hc
  obtain rfl | rfl | rfl := hc
  · rw [exec_triggerEdge hs] at h
    cases h
    rw [rowClock, if_neg (by simp)]
    exact (capture_of_clockSteps_pass hs hslot hwait hr (clockSteps_edge _ l)).imp id .inl
  · cases h
    rw [hbegin]
    exact (capture_deadline hs hslot hwait hr).imp id .inl
  · cases h
    rw [hbegin, rowClock, if_neg (by simp)]
    exact capture_synthetic hs hslot hwait hr hsound

end

/-! ### The rows of ticks, valves and supply -/

theorem ejectorEvent_cmu (s : State) (l : LaneId) (w : Lane × List Record) : (s.ejectorEvent l w).cmu = s.cmu := by
  rw [State.ejectorEvent, evaluateDrain_eq, modLane_cmu, apply_cmu]

theorem tickFalls_cmu (s : State) (l : LaneId) : (s.tickFalls l).cmu = s.cmu := by
  unfold State.tickFalls
  dsimp only
  split
  · rw [takeTick_eq_setLane, setLane_cmu]
  · rfl

theorem supplyFalls_cmu (s : State) (l : LaneId) : (s.supplyFalls l).cmu = s.cmu := by
  unfold State.supplyFalls
  split
  · rfl
  · split
    · exact modLane_cmu _ _ _
    · exact ejectorEvent_cmu _ _ _

theorem supplyRises_cmu (s : State) (l : LaneId) : (s.supplyRises l).cmu = s.cmu := by
  unfold State.supplyRises
  split
  · rfl
  · split
    · exact modLane_cmu _ _ _
    · exact ejectorEvent_cmu _ _ _

/-- Ticks, valve timers and supply events leave the command unit. -/
theorem laneRow_cmu {s t : State} {n : Nat} {l : LaneId} {v : Fin 64} (hs : s.Settled) {c : Instr}
    (hc : c ∈ [Instr.tick n l, .boostTimer n l v, .carrierPeriod n l v, .maxOnGuard n l v, .recoveryEnd n l v,
      .testDurationEnd n l v, .supplyDrop n l, .supplyReturn n l]) (h : exec c s = .next t) : t.cmu = s.cmu := by
  have hbegin : (s.begin n).cmu = s.cmu := by rw [begin_of_settled hs]; rfl
  simp only [List.mem_cons, List.not_mem_nil, or_false] at hc
  obtain rfl | rfl | rfl | rfl | rfl | rfl | rfl | rfl := hc
  · cases h
    exact (tickFalls_cmu _ _).trans hbegin
  · cases h
    exact (ejectorEvent_cmu _ _ _).trans hbegin
  · cases h
    exact (ejectorEvent_cmu _ _ _).trans hbegin
  · cases h
    exact (ejectorEvent_cmu _ _ _).trans hbegin
  · cases h
    exact (ejectorEvent_cmu _ _ _).trans hbegin
  · cases h
    exact (ejectorEvent_cmu _ _ _).trans hbegin
  · cases h
    exact (supplyFalls_cmu _ _).trans hbegin
  · cases h
    exact (supplyRises_cmu _ _).trans hbegin

/-! ### The statement -/

/-- Settles O25: CAPTURE_STATE by the lane's mode and clock, CAPTURE_SNAPSHOT by the boundary, the rows that a waiting capture
meets one by one, and DRAIN_CONDITION. -/
theorem captureTakenOrWaits : Obligations.CaptureTakenOrWaits := by
  refine ⟨fun s n u l q hready => ?_, fun s after => ⟨fun l r hwait hdue hr => ?_, fun hnot => ?_⟩,
    fun s t n l r hsound hs hslot hwait hr => ⟨?_, fun h => ?_, fun c hc h hchanged => ?_, fun v c hc h => laneRow_cmu hs hc h,
      fun c hc h => clockRow_capture_of_other hs hslot hwait hc h⟩,
    fun s after l r hwait hr hdrain hdue => drainCondition_captures hwait hr hdrain hdue⟩
  · have hfield : (commandOf s 0x31 (laneFieldOf l) q).laneField = laneFieldOf l := rfl
    rw [exec_captureState hready.toPortReady hready.idle, commandCapture_eq hfield, commanded_lane]
    refine ⟨fun hmode hclock => ?_, fun hnow => ?_⟩
    · rw [if_pos ⟨by obtain h | h := hmode <;> rw [h] <;> rfl, hclock⟩]
      rfl
    · rw [if_neg ?_]
      · rfl
      · rintro ⟨hsorting, hclock⟩
        obtain h | h | h | h := hnow
        · rw [h] at hsorting
          cases hsorting
        · rw [h] at hsorting
          cases hsorting
        · rw [h] at hsorting
          cases hsorting
        · exact hclock h
  · show Host.Outcome.next (s.settleCapture.pass after) = _
    rw [settleCapture_of_due hwait hdue, takeCapture_eq hr]
    rfl
  · show Host.Outcome.next (s.settleCapture.pass after) = _
    rw [settleCapture_of_not_due hnot]
  · intro c hc h hmode
    obtain rfl | hclock := List.mem_cons.1 hc
    · cases h
      have hleft := leaveFifo_capture (s := s.pass n) hslot hwait (captureDue_of_settled hs hwait)
      rw [begin_of_settled hs n, ← pass_lane s n l]
      exact hleft
    · obtain hwaits | hheld | hlost := clockRow_capture hs hslot hwait hr hsound hclock h
      · exact hwaits.2
      · have hboth := hheld.1.symm.trans (hmode.trans hheld.2.1)
        cases hboth
      · exact absurd (hmode.symm.trans hlost.1) hlost.2.1
  · cases h
    rw [begin_of_settled hs n, ← pass_lane s n l]
    exact modesStay_leaveFifo (slot_pass hslot n) l
  · obtain hwaits | ⟨hhold, -, hnone, hundue, hticks⟩ | ⟨hfault, -, hcaptured⟩ := clockRow_capture hs hslot hwait hr hsound hc h
    · exact absurd hwaits.1 hchanged
    · refine ⟨hnone, hundue, .inl hhold, fun hfault => ?_, fun _ => hticks⟩
      rw [hhold] at hfault
      cases hfault
    · refine ⟨hcaptured.wait, hcaptured.due, .inr hfault, fun _ => hcaptured.capture, fun hhold => ?_⟩
      rw [hfault] at hhold
      cases hhold

end Sys2Proof.Machine
